-- ==== Sys2Proof/Word.lean ====
section
/-! DEFINITION. Word.lean: the values the block handles (spec 00_scope.md R12, R13, R18; 10_state.md R25):
bytes, 32-bit frames, 12-bit samples, the two conversion modes, and the answer of one transport exchange
(20_memory.md R43). -/

namespace Sys2Proof

/-- One byte of a frame (R32, R33). -/
abbrev Byte := BitVec 8

/-- A frame: 32 bits, bit 31 the most significant (R13, R45). -/
abbrev Frame := BitVec 32

/-- A sample: 12 bits, unsigned, in [0, 4095] (R12, R25). -/
abbrev Sample := BitVec 12

/-- ConversionMode (R18, R25): exactly two conversion modes (R12). -/
inductive ConversionMode where
  | singleEnded
  | pseudoDifferential
  deriving DecidableEq, Repr, Inhabited

/-- Four bytes in transfer order: `b0` is the first byte sent or received (R32, R33, R36). -/
structure Bytes4 where
  b0 : Byte
  b1 : Byte
  b2 : Byte
  b3 : Byte
  deriving DecidableEq, Repr, Inhabited

/-- What one transport exchange gives (R43): 4 bytes, or the single value IoFailure (91_not_in_source.md N14). -/
inductive Answer where
  | bytes (b : Bytes4)
  | ioFailure
  deriving DecidableEq, Repr, Inhabited

end Sys2Proof
end

