-- ==== Sys2Proof/Config.lean ====
section
/-! DEFINITION. Config.lean: the constants fixed at design time (00_scope.md R5, R6, R7, R9, R10), derived by the
spec's own formulas, and the one free value: what the transport answers when no answer is scripted
(20_memory.md R43). Nothing here changes while the block runs (R10, 10_state.md R23). -/

namespace Sys2Proof.Config

/-! Primitive widths, R5. -/

/-- FRAME_W (R5). -/
def frameW : Nat := 32
/-- START_W (R5). -/
def startW : Nat := 1
/-- MODE_W (R5). -/
def modeW : Nat := 1
/-- CHAN_W (R5). -/
def chanW : Nat := 3
/-- WAIT_W (R5). -/
def waitW : Nat := 1
/-- ZERO_W (R5). -/
def zeroW : Nat := 1
/-- RES, the sample resolution (R5). -/
def res : Nat := 12

/-! Derived positions and widths, R6 and R7, in the order the formulas need. -/

/-- START_POS (R6). -/
def startPos : Nat := frameW - 1
/-- MODE_POS (R6). -/
def modePos : Nat := frameW - startW - 1
/-- CHAN_HI (R6). -/
def chanHi : Nat := frameW - startW - modeW - 1
/-- CHAN_LO (R6). -/
def chanLo : Nat := frameW - startW - modeW - chanW
/-- WAIT_POS (R6). -/
def waitPos : Nat := chanLo - waitW
/-- ZERO_POS (R6). -/
def zeroPos : Nat := waitPos - zeroW
/-- SAMPLE_HI (R6). -/
def sampleHi : Nat := zeroPos - 1
/-- SAMPLE_LO (R6), the mirror centre (R18). -/
def sampleLo : Nat := frameW - startW - modeW - chanW - waitW - zeroW - res
/-- CKSUM_W (R7). -/
def cksumW : Nat := res - 1
/-- PAD_W (R7). -/
def padW : Nat := sampleLo - cksumW
/-- CKSUM_HI (R6). -/
def cksumHi : Nat := sampleLo - 1
/-- CKSUM_LO (R6). -/
def cksumLo : Nat := sampleLo - cksumW
/-- PAD_HI (R6). -/
def padHi : Nat := cksumLo - 1
/-- PAD_LO (R6). -/
def padLo : Nat := 0

/-- MIRROR_T, the signed realignment amount (R9): negative means a right shift. -/
def mirrorT : Int := 2 * (sampleLo : Int) - ((frameW : Int) - 1)

/-- The largest channel number (R12: exactly 8 channels, 0 to 7). -/
def maxChannel : Nat := 7

/-- FREE VALUE (log entry 4). The transport is an oracle under no law (R43, 92_eei_decisions.md D18): this
constant has no body, so nothing can be proved about what it answers. It is applied to the number of exchanges
made so far and to the 4 bytes sent, and is used only when the caller has scripted no answer. -/
opaque exchangeAnswer : Nat → Bytes4 → Answer

end Sys2Proof.Config
end

