-- ==== Sys2Proof/Machine/Frame.lean ====
section
/-! DEFINITION. Machine/Frame.lean: pure functions on frames: byte order (20_memory.md R32, R33), the masks
(00_scope.md R8), reversal (R14), realignment (41_response_validator.md R65), the fields of a frame (30_encoding.md R46)
and the valid response frame of a sample (42_sample_extractor.md R72). -/

namespace Sys2Proof.Machine

open Sys2Proof

/-! ### Byte order -/

/-- bytes(F), R32: most significant byte first. -/
def bytesOfFrame (F : Frame) : Bytes4 :=
  { b0 := F.extractLsb' 24 8, b1 := F.extractLsb' 16 8, b2 := F.extractLsb' 8 8, b3 := F.extractLsb' 0 8 }

/-- frame(b), R33: the concatenation, `b0` most significant. -/
def frameOfBytes (b : Bytes4) : Frame := b.b0 ++ b.b1 ++ b.b2 ++ b.b3

/-! ### Masks, R8 -/

/-- The 32-bit value with exactly the bits `hi` down to `lo` set. -/
def maskOf (hi lo : Nat) : Frame := BitVec.ofNat 32 (2 ^ (hi + 1) - 2 ^ lo)

/-- START_MASK (R8). -/
def startMask : Frame := maskOf Config.startPos Config.startPos
/-- MODE_MASK (R8). -/
def modeMask : Frame := maskOf Config.modePos Config.modePos
/-- CHAN_MASK (R8). -/
def chanMask : Frame := maskOf Config.chanHi Config.chanLo
/-- WAIT_MASK (R8). -/
def waitMask : Frame := maskOf Config.waitPos Config.waitPos
/-- ZERO_MASK (R8). -/
def zeroMask : Frame := maskOf Config.zeroPos Config.zeroPos
/-- SAMPLE_MASK (R8). -/
def sampleMask : Frame := maskOf Config.sampleHi Config.sampleLo
/-- CKSUM_MASK (R8). -/
def cksumMask : Frame := maskOf Config.cksumHi Config.cksumLo
/-- PAD_MASK (R8). -/
def padMask : Frame := maskOf Config.padHi Config.padLo
/-- MZ_MASK (R8): the mandatory-zero bits of a response, "the complement of SAMPLE_MASK | CKSUM_MASK". -/
def mzMask : Frame := ~~~ (sampleMask ||| cksumMask)
/-- The fixed bits of a command frame (30_encoding.md R47): all but the mode and channel fields. -/
def cmdFixedMask : Frame := ~~~ (modeMask ||| chanMask)

/-! ### Fields, 30_encoding.md R46, as slices F[hi:lo] (R14) -/

/-- F[31], the Start bit. -/
def startField (F : Frame) : BitVec 1 := F.extractLsb' Config.startPos 1
/-- F[30], the Mode bit. -/
def modeField (F : Frame) : BitVec 1 := F.extractLsb' Config.modePos 1
/-- F[29:27], the Channel field. -/
def chanField (F : Frame) : BitVec 3 := F.extractLsb' Config.chanLo 3
/-- F[26], the Wait bit. -/
def waitField (F : Frame) : BitVec 1 := F.extractLsb' Config.waitPos 1
/-- F[25], the Zero bit. -/
def zeroField (F : Frame) : BitVec 1 := F.extractLsb' Config.zeroPos 1
/-- F[24:13], the Sample field (R51). -/
def sampleField (F : Frame) : Sample := F.extractLsb' Config.sampleLo 12
/-- F[12:2], the Checksum field (R52). -/
def cksumField (F : Frame) : BitVec 11 := F.extractLsb' Config.cksumLo 11
/-- F[1:0], the Padding field. -/
def padField (F : Frame) : BitVec 2 := F.extractLsb' Config.padLo 2

/-! ### Reversal and realignment -/

/-- Bits 0, 1, … of `v` taken in turn as the bits n-1, n-2, … of the result. -/
def revFrom : (n : Nat) → {w : Nat} → BitVec w → BitVec n
  | 0, _, _ => 0#0
  | n + 1, _, v => BitVec.cons (v.getLsbD 0) (revFrom n (v >>> 1))

/-- rev_N(v), R14: rev_N(v)[i] = v[N-1-i]. -/
def rev {n : Nat} (v : BitVec n) : BitVec n := revFrom n v

/-- Align(y), 41_response_validator.md R65, both cases; at this hardware's constants it is `y >> 5` (R9). -/
def align (y : Frame) : Frame :=
  if 0 ≤ Config.mirrorT then y <<< Config.mirrorT.toNat else y >>> (-Config.mirrorT).toNat

/-! ### The valid response frame of a sample -/

/-- RespFrame(s), 42_sample_extractor.md R72: not an operation of the block; what a correctly working device returns. -/
def respFrame (s : Sample) : Frame :=
  (s.setWidth 32 <<< Config.sampleLo) ||| ((rev (s.extractLsb' 1 11)).setWidth 32 <<< Config.cksumLo)

end Sys2Proof.Machine
end

