-- ==== Sys2Proof/Machine/Operands.lean ====
section
/-! DEFINITION. Machine/Operands.lean: how ENCODE's operands enter the command frame (30_encoding.md R49, R50) and how
the mode is written as a bit (10_state.md R26, 92_eei_decisions.md D4). -/

namespace Sys2Proof.Machine

open Sys2Proof

/-- The polarity of port `enc_mode` and of frame bit 30 (R25, R26, R49): 1 = Single-ended, 0 = Pseudo-differential. -/
def modeBit : ConversionMode → BitVec 1
  | .singleEnded => 1#1
  | .pseudoDifferential => 0#1

/-- The mode a bit stands for: the inverse reading of `modeBit`. -/
def modeOfBit (b : BitVec 1) : ConversionMode :=
  if b = 1#1 then .singleEnded else .pseudoDifferential

/-- `zext_32(mode_bit) << MODE_POS` (R49). -/
def placeMode (bit : BitVec 1) : Frame := bit.setWidth 32 <<< Config.modePos

/-- `zext_32(channel[2:0]) << CHAN_LO` (R50). -/
def placeChannel (channel : Nat) : Frame := (BitVec.ofNat 3 channel).setWidth 32 <<< Config.chanLo

/-- The command frame's fields put together (R59): START_MASK | mode field | channel field; bits 26..0 stay 0. -/
def commandFrame (bit : BitVec 1) (channel : Nat) : Frame :=
  startMask ||| placeMode bit ||| placeChannel channel

/-- `enc_channel` is one of the 8 channels (R12, R26). -/
def legalChannel (channel : Nat) : Bool := decide (channel ≤ Config.maxChannel)

end Sys2Proof.Machine
end

