-- ==== Sys2Proof/Syntax.lean ====
section
/-! DEFINITION. Syntax.lean: the block's two operations (30_encoding.md R58), one constructor per row of
spec/opcode_table.json. -/

namespace Sys2Proof

/-- An operation request (10_state.md R21): the unit of execution.
`channel` is the unsigned channel request of port `enc_channel` (R26); it is a number, because its width CH_IN_W is an
open parameter (00_scope.md R11) and nothing ever wraps it (R59: the check compares the whole input). -/
inductive Instr where
  /-- ENCODE(mode, channel), R59. -/
  | encode (mode : ConversionMode) (channel : Nat)
  /-- DECODE(b[0..3]), R67. -/
  | decode (bytes : Bytes4)
  deriving DecidableEq, Repr

end Sys2Proof
end

