-- ==== Sys2Proof/WellFormed.lean ====
section
/-! DEFINITION. WellFormed.lean: which requests the ports can carry. -/

namespace Sys2Proof

/-- A request fits the block's ports (00_scope.md R11, 10_state.md R25, R26, R28): the channel request must be
representable in CH_IN_W = `chInW` bits; any 4 bytes can be presented to the decoder. A channel above 7 that fits the
port IS a request: it runs and ends in ChannelOutOfRange (R59). -/
def Instr.wf (chInW : Nat) : Instr → Bool
  | .encode _ channel => decide (channel < 2 ^ chInW)
  | .decode _ => true

end Sys2Proof
end

