-- ==== Sys2Proof/Decode.lean ====
section
/-! DEFINITION. Decode.lean: from what is presented at the block's boundary to an operation request, and back.

The block has NO request word and no opcode bits: "Which operation runs depends on which datapath the request is
presented to" (30_encoding.md R58). So what the model decodes is a PRESENTATION (RawRequest): a datapath and the values
put on it. What the ports cannot carry is refused here by name (93_implementation_defined.md: `refuse` at the
boundary). The opcode table's frame patterns are decoded beside it, for the host (log entry 5). -/

namespace Sys2Proof

open Sys2Proof.Machine

/-- What a caller presents at the boundary, before anything is checked. -/
inductive RawRequest where
  /-- On the encoder ports (R26): the `enc_mode` bit and any integer as the channel request. -/
  | enc (mode : BitVec 1) (channel : Int)
  /-- On the decoder port (R28): a byte sequence of any length, first received byte first. -/
  | dec (bytes : List Byte)
  /-- A table word that is no frame of either row of the opcode table, so on neither datapath: its length is not 32 bits
  (R56), or its bits fit neither pattern (R55: no further encoding space). -/
  | noDatapath (nbits word : Nat)
  deriving DecidableEq, Repr

/-- Why a presentation is no request. -/
inductive DecodeReject where
  /-- A negative channel integer cannot be represented on the unsigned port (R11, D5). -/
  | channelNegative
  /-- A channel integer of 2^CH_IN_W or more cannot be represented on the port (R11, R25). -/
  | channelTooWide
  /-- A byte sequence whose length is not 4 (R36, D15). -/
  | wrongLength
  /-- Neither datapath was selected (R55, R56, R58). -/
  | noDatapath
  deriving DecidableEq, Repr

/-- The encoder's boundary (R11, R25, R26): an integer that the unsigned CH_IN_W-bit port can carry. -/
def readChannel (chInW : Nat) : Int → Except DecodeReject Nat
  | .negSucc _ => .error .channelNegative
  | .ofNat channel => if channel < 2 ^ chInW then .ok channel else .error .channelTooWide

/-- The decoder's boundary (R28, R36): exactly 4 bytes, the first received first. -/
def readDecBytes : List Byte → Except DecodeReject Bytes4
  | [b0, b1, b2, b3] => .ok { b0 := b0, b1 := b1, b2 := b2, b3 := b3 }
  | _ => .error .wrongLength

/-- The boundary (R58): read a presentation as a request, or refuse it by name. -/
def decodeRequest (chInW : Nat) : RawRequest → Except DecodeReject Instr
  | .enc mode channel =>
    match readChannel chInW channel with
    | .ok c => .ok (.encode (modeOfBit mode) c)
    | .error e => .error e
  | .dec bytes =>
    match readDecBytes bytes with
    | .ok b => .ok (.decode b)
    | .error e => .error e
  | .noDatapath _ _ => .error .noDatapath

/-- The four bytes as a byte sequence, first byte first (R32, R33). -/
def listOfBytes (b : Bytes4) : List Byte := [b.b0, b.b1, b.b2, b.b3]

/-- The encoder of requests: how a request is presented (R26, R28, R58). -/
def encodeRequest : Instr → RawRequest
  | .encode mode channel => .enc (modeBit mode) (.ofNat channel)
  | .decode bytes => .dec (listOfBytes bytes)

/-! ### The opcode table's frame patterns (R58, spec/opcode_table.json) -/

/-- One row of the opcode table: its mnemonic and the fixed bits of its frame. -/
structure TableRow where
  mnemonic : String
  mask : Frame
  value : Frame
  deriving DecidableEq, Repr

/-- ENCODE's row (R47): mask 0x87FFFFFF, match 0x80000000. -/
def encodeRow : TableRow := { mnemonic := "ENCODE", mask := cmdFixedMask, value := startMask }

/-- DECODE's row (R48): mask 0xFE000003, match 0x00000000. -/
def decodeRow : TableRow := { mnemonic := "DECODE", mask := mzMask, value := 0#32 }

/-- A frame fits a row's pattern. -/
def TableRow.fits (r : TableRow) (F : Frame) : Bool := F &&& r.mask == r.value

/-- The operation a table frame, in its 4 stored bytes, stands for: a command frame is what ENCODE produces, so it
stands for the one request that produces it (R47); a frame with clear mandatory-zero bits is what DECODE is given
(R48). The two patterns share no frame. -/
def decodeFrameBytes (b : Bytes4) : Option Instr :=
  let F := frameOfBytes b
  if encodeRow.fits F then some (.encode (modeOfBit (modeField F)) (chanField F).toNat)
  else if decodeRow.fits F then some (.decode b)
  else none

/-- The host's view of the decoder: the table word `w` of `nbits` bits, bit 0 the least significant bit of the frame
(R13), laid out in its stored byte order, most significant byte first (R32). Frames "are always 32 bits" (R56): a word of
any other length, shorter or longer, is no frame and decodes to none. That a table word is read as a request at all is
the model's choice (log entry 5). -/
def decodeTableWord (nbits w : Nat) : Option Instr :=
  if nbits = Config.frameW ∧ w < 2 ^ Config.frameW then decodeFrameBytes (bytesOfFrame (BitVec.ofNat 32 w)) else none

/-- The table frame of a request, where it has one: ENCODE of a legal channel has its command frame (R59, R60); DECODE
of bytes whose mandatory-zero bits are clear has those bytes' frame (R48). An out-of-range ENCODE "produces no frame",
and a malformed response fits no row. -/
def tableWord : Instr → Option Frame
  | .encode mode channel => if legalChannel channel then some (commandFrame (modeBit mode) channel) else none
  | .decode bytes => if decodeRow.fits (frameOfBytes bytes) then some (frameOfBytes bytes) else none

/-- How the host's table word is presented to the block: as the request it stands for. -/
def requestOfTableWord (nbits w : Nat) : RawRequest :=
  match decodeTableWord nbits w with
  | some i => encodeRequest i
  | none => .noDatapath nbits w

end Sys2Proof
end

