-- ==== Sys2Proof/Machine/State.lean ====
section
/-! DEFINITION. Machine/State.lean: the results (00_scope.md R16, 60_exceptions.md R76), the state, the reasons a step
stops, and reset.

THE BLOCK ITSELF HOLDS NO STATE (10_state.md R19 to R24). What State holds is what stands AROUND the combinational
block: the parameter CH_IN_W (R11), the values on its input wires (R26, R28), the harness's three cells `cmd`, `rsp`,
`res` (30_encoding.md R57: "not block state"), the caller's remaining program (R21, R57) and the transport's side of the
exchange (20_memory.md R43). No output is stored: each is a function of the wires (R19, R31; Machine/Flags.lean). -/

namespace Sys2Proof.Machine

open Sys2Proof

/-! The block has three error kinds "and no others" (R76): one raised by ENCODE, two by DECODE. -/

/-- The error ENCODE raises, with its payload (R76). -/
inductive EncodeError where
  /-- The channel input value, unchanged (R77). -/
  | channelOutOfRange (value : Nat)
  deriving DecidableEq, Repr

/-- The errors DECODE raises, with their payloads (R76). -/
inductive DecodeError where
  /-- The raw 32-bit frame (R78). -/
  | malformedResponse (frame : Frame)
  /-- The raw 32-bit frame (R79). -/
  | checksumMismatch (frame : Frame)
  deriving DecidableEq, Repr

/-- The result of an operation: exactly one of `Ok(v)` and `Err(kind, payload)` (R16). -/
inductive Result (ε α : Type) where
  | ok (v : α)
  | err (e : ε)
  deriving DecidableEq, Repr

/-- What ENCODE ends in: a command frame, or ChannelOutOfRange (R59). -/
abbrev EncodeResult := Result EncodeError Frame

/-- What DECODE ends in: a sample, MalformedResponse or ChecksumMismatch (R67). -/
abbrev DecodeResult := Result DecodeError Sample

/-- The result of the last operation, as the harness cell `res` keeps it (R57). -/
inductive OpResult where
  | encoded (r : EncodeResult)
  | decoded (r : DecodeResult)
  deriving DecidableEq, Repr

/-- One line of a harness program (R57), and the presentation of both datapaths at once (R58, 60_exceptions.md R89). -/
inductive HarnessForm where
  /-- A block operation, as it is presented at the boundary: `ENCODE m, c` or `DECODE b0 b1 b2 b3`. -/
  | request (r : RawRequest)
  /-- `XFER`: one transport exchange. -/
  | xfer
  /-- `DECODE` without operands: decode what `rsp` holds. -/
  | decodeResponse
  /-- `READ m, c`. -/
  | read (mode : BitVec 1) (channel : Int)
  /-- An ENCODE and a DECODE request presented at the same time: "Both may be presented at once" (R58). The line is the
  model's own, since R57 writes none (log entry 6). -/
  | both (mode : BitVec 1) (channel : Int) (bytes : List Byte)
  deriving DecidableEq, Repr

/-- The state: plain data (see the head of this file). -/
structure State where
  /-- CH_IN_W, the width of port `enc_channel` (R11): a parameter; no step changes it. -/
  chInW : Nat
  /-- Input wire `enc_mode` (R26). -/
  encMode : BitVec 1
  /-- Input wire `enc_channel`, unsigned, CH_IN_W bits (R26). -/
  encChannel : Nat
  /-- Input wire `dec_bytes[0..3]` (R28). -/
  decBytes : Bytes4
  /-- The requests and harness steps the caller has yet to present, next first (R21, R57). -/
  program : List HarnessForm
  /-- Harness cell `cmd`: 4 bytes or none (R57). -/
  cmd : Option Bytes4
  /-- Harness cell `rsp`: 4 bytes, IoFailure or none (R57). -/
  rsp : Option Answer
  /-- Harness cell `res`: the last result (R57). -/
  res : Option OpResult
  /-- The transport answers the environment has scripted, next first: a free input (R43). -/
  answers : List Answer
  /-- The model's own counter of exchanges made: the free answer is read at it (log entry 4). -/
  exchanges : Nat
  deriving DecidableEq, Repr

/-- Why the model stops with a fault. No step raises one. -/
inductive Fault where
  /-- An implementation was seen to drive `dec_status` = 3 (60_exceptions.md R81; 93_implementation_defined.md: `fault`).
  Raised only by `readDecStatus`, the reading of a status code from outside; never by `step`. Safe. -/
  | decStatusThree
  deriving DecidableEq, Repr

/-- Why the model refuses. -/
inductive Refusal where
  /-- An arm of `exec` without a meaning; no arm of this model raises it. Safe. -/
  | notModelled (mnemonic : String)
  /-- A negative channel integer was presented (00_scope.md R11, D5): raised by the boundary in `step`. Safe. -/
  | channelNegative
  /-- A channel integer that does not fit in CH_IN_W bits was presented (R11): raised by the boundary in `step`. Safe. -/
  | channelTooWide
  /-- A byte sequence of a length other than 4 was presented to DECODE (R36): raised by the boundary in `step`. Safe. -/
  | wrongLength
  /-- A table word that is no frame of either operation was presented (R55, R56, R58): raised by the boundary in `step`.
  Safe. -/
  | noDatapath
  deriving DecidableEq, Repr

/-- After power-up (R31, R94): the block has nothing to reset. The harness cells are none (95_test_vectors.md §4: "Start
state of every program"). The parameter, the values on the input wires, the transport's side and the caller's program
are the environment's, and the spec gives none: log entries 1, 2, 4 and 5 (DESIGN CHOICE). -/
def State.reset : State :=
  { chInW := 8
    encMode := 0#1
    encChannel := 0
    decBytes := { b0 := 0#8, b1 := 0#8, b2 := 0#8, b3 := 0#8 }
    program := []
    cmd := none
    rsp := none
    res := none
    answers := []
    exchanges := 0 }

end Sys2Proof.Machine
end

