-- ==== Sys2Proof/Machine/Ops.lean ====
section
/-! DEFINITION. Machine/Ops.lean: the three sub-blocks as pure functions (00_scope.md R2) and the named updates of the
state.

There is no memory operation (20_memory.md R34), no register operation (10_state.md R20), and NO EXCEPTION ENTRY OR
RETURN: "The block has no traps. An error ... is simply the result of the operation" (60_exceptions.md R82, R83). What
other models share as taking an exception is here `raise`: the operation ends in an error result (R16). -/

namespace Sys2Proof.Machine

open Sys2Proof

/-- `raise <Error>(payload)` (R16): the operation ends with an error result and changes no state. -/
def raise {ε α : Type} (e : ε) : Result ε α := .err e

/-- One line of pseudocode after another (R16): after an error "no later line of the pseudocode runs". -/
def Result.andThen {ε α β : Type} (r : Result ε α) (next : α → Result ε β) : Result ε β :=
  match r with
  | .ok v => next v
  | .err e => .err e

/-! ### The command encoder, 40_command_encoder.md -/

/-- ENCODE(mode, channel), R59: the whole channel input is compared, before any frame is built. -/
def encodeOp (bit : BitVec 1) (channel : Nat) : EncodeResult :=
  if channel > Config.maxChannel then raise (.channelOutOfRange channel)
  else .ok (commandFrame bit channel)

/-! ### The response frame decoder with checksum validator, 41_response_validator.md -/

/-- ZeroCheck(F), R62: step 1. -/
def zeroCheck (F : Frame) : Result DecodeError Unit :=
  if F &&& mzMask ≠ 0#32 then raise (.malformedResponse F) else .ok ()

/-- ChecksumCheck(F), R64: step 2. -/
def checksumCheck (F : Frame) : Result DecodeError Unit :=
  if align (rev F) ≠ F then raise (.checksumMismatch F) else .ok ()

/-! ### The bit-mirrored sample extractor, 42_sample_extractor.md -/

/-- ExtractSample(F), R70: step 3, `(F >> SAMPLE_LO)[RES-1:0]`. -/
def extractSample (F : Frame) : Sample := (F >>> Config.sampleLo).extractLsb' 0 12

/-- DECODE on the frame of the received bytes (R67): the three steps in order; extraction is reached only when both
checks pass (R71), and the first error ends the operation (R84). -/
def decodeFrame (F : Frame) : DecodeResult :=
  (zeroCheck F).andThen fun _ => (checksumCheck F).andThen fun _ => .ok (extractSample F)

/-- DECODE(b[0..3]), R67. -/
def decodeOp (b : Bytes4) : DecodeResult := decodeFrame (frameOfBytes b)

/-! ### Named updates of the state -/

/-- Present a request on the encoder ports (R26). The decoder's wires keep their values (60_exceptions.md R89). -/
def State.presentEncode (s : State) (bit : BitVec 1) (channel : Nat) : State :=
  { s with encMode := bit, encChannel := channel }

/-- Present a request on the decoder port (R28). The encoder's wires keep their values (R89). -/
def State.presentDecode (s : State) (b : Bytes4) : State := { s with decBytes := b }

/-- Present a request on BOTH datapaths at once (30_encoding.md R58, R89). -/
def State.presentBoth (s : State) (bit : BitVec 1) (channel : Nat) (b : Bytes4) : State :=
  { s with encMode := bit, encChannel := channel, decBytes := b }

/-- The harness form `ENCODE m, c` (R57): `res <- ENCODE(m, c)`; `cmd <- bytes(F)` on `Ok(F)`, else `cmd <- none`. -/
def State.recordEncode (s : State) (r : EncodeResult) : State :=
  { s with
    res := some (.encoded r)
    cmd := match r with
      | .ok F => some (bytesOfFrame F)
      | .err _ => none }

/-- The harness form DECODE (R57): `res` takes the result; `cmd` and `rsp` keep theirs. -/
def State.recordDecode (s : State) (r : DecodeResult) : State := { s with res := some (.decoded r) }

/-- The caller's remaining program. -/
def State.withProgram (s : State) (p : List HarnessForm) : State := { s with program := p }

/-- `rsp <- Exchange(cmd)` (R57), with the answer given. -/
def State.withResponse (s : State) (a : Answer) : State := { s with rsp := some a }

/-- One exchange has been made; `rest` are the answers still scripted. -/
def State.afterExchange (s : State) (rest : List Answer) : State :=
  { s with answers := rest, exchanges := s.exchanges + 1 }

end Sys2Proof.Machine
end

