-- ==== Sys2Proof/Machine/Flags.lean ====
section
/-! DEFINITION. Machine/Flags.lean: the block has no flags (10_state.md R22); what it has is the result codes
(60_exceptions.md R80) and the output ports (R27, R29), each a function of the input wires and never stored (R19, R31).

A port that does not carry the current result has NO VALUE here, `none` (R30: "A model must not give such a port a
value, and no claim may read one"; log entry 3). -/

namespace Sys2Proof.Machine

open Sys2Proof

/-! ### Result codes, R80 -/

/-- `enc_err`: 0 = Ok, 1 = ChannelOutOfRange. -/
def encErrCode : EncodeResult → BitVec 1
  | .ok _ => 0#1
  | .err _ => 1#1

/-- `dec_status`: 0 = Ok, 1 = MalformedResponse, 2 = ChecksumMismatch. -/
def decStatusCode : DecodeResult → BitVec 2
  | .ok _ => 0#2
  | .err (.malformedResponse _) => 1#2
  | .err (.checksumMismatch _) => 2#2

/-- The kinds of result `dec_status` names (R80). -/
inductive StatusKind where
  | ok
  | malformedResponse
  | checksumMismatch
  deriving DecidableEq, Repr

/-- A `dec_status` code seen from outside, read as a kind of result; 3 is no result but a fault of the implementation
that drives it (R81). -/
def readDecStatus (code : BitVec 2) : Except Fault StatusKind :=
  if code = 0#2 then .ok .ok
  else if code = 1#2 then .ok .malformedResponse
  else if code = 2#2 then .ok .checksumMismatch
  else .error .decStatusThree

/-! ### The current results, from the wires -/

/-- The encoder's current result: a function of `enc_mode` and `enc_channel` alone (R31). -/
def State.encResult (s : State) : EncodeResult := encodeOp s.encMode s.encChannel

/-- The internal value `dec_frame` (R28). -/
def State.decFrame (s : State) : Frame := frameOfBytes s.decBytes

/-- The decoder's current result: a function of `dec_bytes` alone (R31). -/
def State.decResult (s : State) : DecodeResult := decodeOp s.decBytes

/-! ### Encoder output ports, R27 -/

/-- Port `enc_err`. -/
def State.encErr (s : State) : BitVec 1 := encErrCode s.encResult

/-- Port `enc_frame`: the command frame when `enc_err` = 0. -/
def State.encFrame (s : State) : Option Frame :=
  match s.encResult with
  | .ok F => some F
  | .err _ => none

/-- Port `enc_bytes[0..3]`: the command frame's bytes when `enc_err` = 0 (R32). -/
def State.encBytes (s : State) : Option Bytes4 := s.encFrame.map bytesOfFrame

/-- Port `enc_err_value`: "the out-of-range channel value, equal to `enc_channel`", when `enc_err` = 1. -/
def State.encErrValue (s : State) : Option Nat :=
  match s.encResult with
  | .ok _ => none
  | .err (.channelOutOfRange v) => some v

/-! ### Decoder output ports, R29 -/

/-- Port `dec_status`. -/
def State.decStatus (s : State) : BitVec 2 := decStatusCode s.decResult

/-- Port `dec_sample`: the sample when `dec_status` = 0. -/
def State.decSample (s : State) : Option Sample :=
  match s.decResult with
  | .ok v => some v
  | .err _ => none

/-- Port `dec_sample` widened by an integrator to `n` bits: "the upper bits are 0" (R29, D9). -/
def State.decSampleWide (s : State) (n : Nat) : Option (BitVec n) := s.decSample.map (BitVec.setWidth n)

/-- Port `dec_err_frame`: the raw response frame when `dec_status` is 1 or 2. -/
def State.decErrFrame (s : State) : Option Frame :=
  match s.decResult with
  | .ok _ => none
  | .err (.malformedResponse F) => some F
  | .err (.checksumMismatch F) => some F

end Sys2Proof.Machine
end

