-- ==== Sys2Proof/Machine/Decoder.lean ====
section
/-! DEFINITION. Machine/Decoder.lean: the meaning of DECODE (41_response_validator.md R67). -/

namespace Sys2Proof.Machine

open Sys2Proof

/-- DECODE(b[0..3]), R67: the 4 bytes are put on the decoder port, and the result the ports then carry is yielded (R21)
to the harness cell `res` (R57). Malformed frames and checksum mismatches complete too: they are results (R76, R82). -/
def execDecode (bytes : Bytes4) (s : State) : Host.Outcome State Fault Refusal :=
  let s1 := s.presentDecode bytes
  .next (s1.recordDecode s1.decResult)

end Sys2Proof.Machine
end

