-- ==== Sys2Proof/Machine/Encoder.lean ====
section
/-! DEFINITION. Machine/Encoder.lean: the meaning of ENCODE (40_command_encoder.md R59). -/

namespace Sys2Proof.Machine

open Sys2Proof

/-- ENCODE(mode, channel), R59: the request is put on the encoder ports, the result the ports then carry is yielded
(R21), and the harness cells take it (R57). An out-of-range channel completes too: its result is
`Err(ChannelOutOfRange, channel)` (R77), an error being "simply the result of the operation" (R82). -/
def execEncode (mode : ConversionMode) (channel : Nat) (s : State) : Host.Outcome State Fault Refusal :=
  let s1 := s.presentEncode (modeBit mode) channel
  .next (s1.recordEncode s1.encResult)

end Sys2Proof.Machine
end

