-- ==== Sys2Proof/Machine/Dispatch.lean ====
section
/-! DEFINITION. Machine/Dispatch.lean: one arm per operation (30_encoding.md R58). -/

namespace Sys2Proof.Machine

open Sys2Proof

def exec (i : Instr) (s : State) : Host.Outcome State Fault Refusal :=
  match i with
  | .encode mode channel => Sys2Proof.Machine.execEncode mode channel s
  | .decode bytes => Sys2Proof.Machine.execDecode bytes s

end Sys2Proof.Machine
end

