-- ==== Sys2Proof/Machine/Harness.lean ====
section
/-! DEFINITION. Machine/Harness.lean: the harness around the block (30_encoding.md R57) and the transport exchange
(20_memory.md R43). None of it is part of the block; it is what runs the programs of 95_test_vectors.md. -/

namespace Sys2Proof.Machine

open Sys2Proof

/-- `Exchange(out)` (R43): the next scripted answer, or, where none is scripted, the free answer of this exchange (log
entry 4). Any 4 bytes or IoFailure, under no law. -/
def exchange (s : State) (out : Bytes4) : Answer × State :=
  match s.answers with
  | a :: rest => (a, s.afterExchange rest)
  | [] => (Config.exchangeAnswer s.exchanges out, s.afterExchange [])

/-- `XFER` (R57): "If `cmd` = none, nothing happens. Otherwise `rsp <- Exchange(cmd)`". -/
def runXfer (s : State) : State :=
  match s.cmd with
  | none => s
  | some out => (exchange s out).2.withResponse (exchange s out).1

/-- `DECODE` without operands (R57): decodes `rsp` "if `rsp` holds 4 bytes. If `rsp` is IoFailure or none, nothing
happens and `res` is unchanged" (60_exceptions.md R90). -/
def runDecodeResponse (s : State) : Host.Outcome State Fault Refusal :=
  match s.rsp with
  | some (.bytes b) => exec (.decode b) s
  | some .ioFailure => .next s
  | none => .next s

/-- `READ m, c` (R57): "`ENCODE m, c ; XFER ; DECODE`". -/
def readExpansion (mode : BitVec 1) (channel : Int) : List HarnessForm :=
  [.request (.enc mode channel), .xfer, .decodeResponse]

/-- The refusal of a presentation the boundary rejects. -/
def refusalOf : DecodeReject → Refusal
  | .channelNegative => .channelNegative
  | .channelTooWide => .channelTooWide
  | .wrongLength => .wrongLength
  | .noDatapath => .noDatapath

/-- A block operation as it is presented: the boundary reads it, then it runs (R21). -/
def runRequest (r : RawRequest) (s : State) : Host.Outcome State Fault Refusal :=
  match decodeRequest s.chInW r with
  | .ok i => exec i s
  | .error e => .refused (refusalOf e)

/-- Both datapaths at once (30_encoding.md R58, 60_exceptions.md R89): the wires of both are driven in one step, and both
results stand on the ports together. Of the cells, `cmd` takes the encoder's side and `res`, which holds one result, the
decoder's (log entry 6). -/
def runBoth (mode : BitVec 1) (channel : Int) (bytes : List Byte) (s : State) : Host.Outcome State Fault Refusal :=
  match readChannel s.chInW channel with
  | .error e => .refused (refusalOf e)
  | .ok c =>
    match readDecBytes bytes with
    | .error e => .refused (refusalOf e)
    | .ok b =>
      let s1 := s.presentBoth mode c b
      .next ((s1.recordEncode s1.encResult).recordDecode s1.decResult)

/-- One line of a harness program, at the state in which the line has been taken off the program. -/
def runForm (f : HarnessForm) (s : State) : Host.Outcome State Fault Refusal :=
  match f with
  | .request r => runRequest r s
  | .xfer => .next (runXfer s)
  | .decodeResponse => runDecodeResponse s
  | .both mode channel bytes => runBoth mode channel bytes s
  | .read mode channel => .next (s.withProgram (readExpansion mode channel ++ s.program))

end Sys2Proof.Machine
end

