-- ==== Sys2Proof/Machine/Step.lean ====
section
/-! DEFINITION. Machine/Step.lean: one step takes one request (10_state.md R21). -/

namespace Sys2Proof.Machine

open Sys2Proof

/-- One step: the caller's next line runs. With nothing to present, the wires keep their values and so do the outputs
(60_exceptions.md R82: a result is "held on the output ports for as long as the inputs stay the same"). -/
def step (s : State) : Host.Outcome State Fault Refusal :=
  match s.program with
  | [] => .next s
  | f :: rest => runForm f (s.withProgram rest)

/-- The host's placing of one instruction: its table word becomes the next request presented (log entry 5). -/
def State.withFetchWord (s : State) (nbits w : Nat) : State :=
  s.withProgram (.request (requestOfTableWord nbits w) :: s.program)

end Sys2Proof.Machine
end

