-- ==== Sys2Proof/Safety.lean ====
section
/-! DEFINITION. Safety.lean: the terms claims use: the invariant of the model's state, and a run. -/

namespace Sys2Proof.Machine

open Sys2Proof

/-- What holds in every state a step can leave: the ports are wide enough and carry what fits them, and the harness
cells hold results the wires still show. -/
structure State.Inv (s : State) : Prop where
  /-- CH_IN_W ≥ 3 (00_scope.md R11). -/
  width : 3 ≤ s.chInW
  /-- `enc_channel` is a CH_IN_W-bit value (10_state.md R26). -/
  channelFits : s.encChannel < 2 ^ s.chInW
  /-- `cmd`, where it holds bytes, holds the current command frame's bytes (30_encoding.md R57). -/
  cmdIsCurrent : ∀ b, s.cmd = some b → s.encBytes = some b
  /-- `res`, where it holds an ENCODE result, holds the encoder's current one (60_exceptions.md R82). -/
  encodedIsCurrent : ∀ r, s.res = some (.encoded r) → s.encResult = r
  /-- `res`, where it holds a DECODE result, holds the decoder's current one (R82). -/
  decodedIsCurrent : ∀ r, s.res = some (.decoded r) → s.decResult = r

/-- `k` steps of the machine. -/
def run (k : Nat) (s : State) : Host.Outcome State Fault Refusal := Sys2Proof.core.run k s

end Sys2Proof.Machine
end

