-- ==== Sys2Proof/Certificates/Slice0/Obligations.lean ====
section
/-! DEFINITION. Certificates/Slice0/Obligations.lean: the statements for the provers (OBLIGATIONS.json). Each docstring
names the rule of spec/ it formalises, or says what of it is the model's own. -/

open Sys2Proof Sys2Proof.Machine

/-! ### The encoding of requests -/

/-- Derived from R11, R26, R28, R36, R58: the boundary reads back every well-formed request it is given, and each
presentation it accepts is the presentation of exactly the request it reads, which fits the ports. That a request is
presented as a RawRequest is the model's own (log entry 5). -/
def Obligations.PresentedRequestsReadBack : Prop :=
  (∀ (w : Nat) (i : Instr), i.wf w = true → decodeRequest w (encodeRequest i) = .ok i) ∧
  (∀ (w : Nat) (r : RawRequest) (i : Instr), decodeRequest w r = .ok i → i.wf w = true ∧ encodeRequest i = r)

/-- Derived from R47, R48, R58 and opcode_table.json: a request has the table frame F exactly when the decoder reads the
request from F, so the rows drop no bit and share no frame. The reading of a table frame as a request is the model's own
(log entry 5). -/
def Obligations.TableFramesReadBack : Prop :=
  ∀ (i : Instr) (F : Frame), tableWord i = some F ↔ decodeTableWord 32 F.toNat = some i

/-- Derived from R47, R48, R56, R60: frames written out from the two patterns decode to the requests they stand for; frames
outside both patterns, and words that are shorter or longer than a frame, to none. The spec has no request word (R58):
that a table frame decodes to a request is THE MODEL'S CHOICE (log entry 5). -/
def Obligations.TableFramesFromTheSpecDecode : Prop :=
  decodeTableWord 32 0b10101000000000000000000000000000 = some (.encode .pseudoDifferential 5) ∧
  decodeTableWord 32 0b11011000000000000000000000000000 = some (.encode .singleEnded 3) ∧
  decodeTableWord 32 0b00000000101010101010101010101000 =
    some (.decode { b0 := 0x00#8, b1 := 0xAA#8, b2 := 0xAA#8, b3 := 0xA8#8 }) ∧
  decodeTableWord 32 0b00000000000000000001000000000000 =
    some (.decode { b0 := 0x00#8, b1 := 0x00#8, b2 := 0x10#8, b3 := 0x00#8 }) ∧
  decodeTableWord 32 0b01000000000000000000000000000000 = none ∧
  decodeTableWord 32 0b10000100000000000000000000000000 = none ∧
  decodeTableWord 32 0b00000000000000000000000000000001 = none ∧
  decodeTableWord 64 0b10101000000000000000000000000000 = none ∧
  decodeTableWord 31 0 = none ∧ decodeTableWord 8 0 = none ∧ decodeTableWord 0 0 = none

/-- Derived from R21, R58: a step whose next line presents a request runs that request, at the state in which the line has
been taken off the caller's program; the step adds nothing else. That a step takes the next line of State.program is
THE MODEL'S CHOICE (log entry 5): R21 leaves the caller's sequence outside the block. -/
def Obligations.StepRunsThePresentedRequest : Prop :=
  ∀ (s : State) (r : RawRequest) (rest : List HarnessForm) (i : Instr),
    s.program = .request r :: rest → decodeRequest s.chInW r = .ok i →
    step s = exec i { s with program := rest }

/-- Derived from R11, R47, R48: the table frame of a request, placed as the next request, is run by the very next step,
at the state it was placed in. The table frame of a request and its placing are THE MODEL'S CHOICE (log entry 5), and
CH_IN_W as a field of State is log entry 1's. -/
def Obligations.PlacedTableFrameRuns : Prop :=
  ∀ (s : State) (i : Instr) (F : Frame), 3 ≤ s.chInW → tableWord i = some F →
    step (s.withFetchWord 32 F.toNat) = exec i s

/-- Derived from R11, R25, R36, R58: what a step does with every presentation. A channel integer completes exactly when it
is a number that fits CH_IN_W bits, a byte sequence exactly when it has 4 bytes, both at once exactly when each fits;
everything else is refused, by name. THE MODEL'S CHOICE: that a channel integer of 2^CH_IN_W or more is refused, and
that a refusal ends the run (log entry 11; 93_implementation_defined.md names negative integers and wrong lengths), the
line both (log entry 6; with both misfits the channel's is named), and the line of a table word that selects no datapath
and the caller's program (log entry 5). -/
def Obligations.BoundaryRefusesWhatPortsCannotCarry : Prop :=
  (∀ (s : State) (bit : BitVec 1) (z : Int) (rest : List HarnessForm),
    s.program = .request (.enc bit z) :: rest →
    (z < 0 → step s = .refused .channelNegative) ∧
    ((2 : Int) ^ s.chInW ≤ z → step s = .refused .channelTooWide) ∧
    (0 ≤ z → z < (2 : Int) ^ s.chInW → ∃ t, step s = .next t)) ∧
  (∀ (s : State) (bs : List Byte) (rest : List HarnessForm),
    s.program = .request (.dec bs) :: rest →
    (bs.length ≠ 4 → step s = .refused .wrongLength) ∧
    (bs.length = 4 → ∃ t, step s = .next t)) ∧
  (∀ (s : State) (nbits word : Nat) (rest : List HarnessForm),
    s.program = .request (.noDatapath nbits word) :: rest → step s = .refused .noDatapath) ∧
  (∀ (s : State) (bit : BitVec 1) (z : Int) (bs : List Byte) (rest : List HarnessForm),
    s.program = .both bit z bs :: rest →
    (z < 0 → step s = .refused .channelNegative) ∧
    ((2 : Int) ^ s.chInW ≤ z → step s = .refused .channelTooWide) ∧
    (0 ≤ z → z < (2 : Int) ^ s.chInW → bs.length ≠ 4 → step s = .refused .wrongLength) ∧
    (0 ≤ z → z < (2 : Int) ^ s.chInW → bs.length = 4 → ∃ t, step s = .next t))

/-! ### ENCODE -/

/-- R59, whole: ENCODE completes in every state, with the result and on the ports as the rule says; with its corner
cases. -/
def Obligations.EncodeBuildsTheCommandFrame : Prop :=
  modeBit .singleEnded = 1#1 ∧ modeBit .pseudoDifferential = 0#1 ∧
  (∀ (m : ConversionMode) (c : Nat) (s : State), 7 < c →
    ∃ t, exec (.encode m c) s = .next t ∧ t.encResult = .err (.channelOutOfRange c) ∧
      t.encErr = 1#1 ∧ t.encErrValue = some c ∧ ∀ F, t.encFrame ≠ some F) ∧
  (∀ (m : ConversionMode) (c : Nat) (s : State), c ≤ 7 →
    ∃ (F : Frame) (t : State),
      F = 0x80000000#32 ||| ((modeBit m).setWidth 32 <<< 30) ||| ((BitVec.ofNat 3 c).setWidth 32 <<< 27) ∧
      exec (.encode m c) s = .next t ∧ t.encResult = .ok F ∧
      t.encErr = 0#1 ∧ t.encFrame = some F ∧ t.encBytes = some (bytesOfFrame F) ∧
      F &&& 0x07FFFFFF#32 = 0#32 ∧ 0x80000000 ≤ F.toNat ∧ F.toNat ≤ 0xF8000000) ∧
  encodeOp (modeBit .pseudoDifferential) 0 = .ok 0x80000000#32 ∧
  encodeOp (modeBit .singleEnded) 7 = .ok 0xF8000000#32 ∧
  encodeOp (modeBit .singleEnded) 0 = .ok 0xC0000000#32 ∧
  bytesOfFrame 0xC0000000#32 = { b0 := 0xC0#8, b1 := 0x00#8, b2 := 0x00#8, b3 := 0x00#8 }

/-- R60, whole: the sixteen frames of the truth table, and the bytes they have. -/
def Obligations.EncoderTruthTable : Prop :=
  (∀ row ∈ ([(0, 0xC0000000#32, 0x80000000#32), (1, 0xC8000000#32, 0x88000000#32), (2, 0xD0000000#32, 0x90000000#32),
      (3, 0xD8000000#32, 0x98000000#32), (4, 0xE0000000#32, 0xA0000000#32), (5, 0xE8000000#32, 0xA8000000#32),
      (6, 0xF0000000#32, 0xB0000000#32), (7, 0xF8000000#32, 0xB8000000#32)] : List (Nat × Frame × Frame)),
    encodeOp (modeBit .singleEnded) row.1 = .ok row.2.1 ∧ encodeOp (modeBit .pseudoDifferential) row.1 = .ok row.2.2) ∧
  (∀ (m : ConversionMode) (c : Nat) (F : Frame), encodeOp (modeBit m) c = .ok F →
    bytesOfFrame F = { b0 := BitVec.ofNat 8 (0x80 ||| ((modeBit m).toNat <<< 6) ||| (c <<< 3)), b1 := 0#8, b2 := 0#8, b3 := 0#8 })

/-- R61, whole: the four encoder laws. -/
def Obligations.EncoderLaws : Prop :=
  (∀ (m : ConversionMode) (c : Nat), c ≤ 7 →
    ∃ F, encodeOp (modeBit m) c = .ok F ∧ startField F = 1#1 ∧ modeField F = modeBit m ∧
      (chanField F).toNat = c ∧ F.extractLsb' 0 27 = 0#27) ∧
  (∀ (m : ConversionMode) (c : Nat), 7 < c → encodeOp (modeBit m) c = .err (.channelOutOfRange c)) ∧
  (∀ (m m' : ConversionMode) (c c' : Nat) (F : Frame),
    encodeOp (modeBit m) c = .ok F → encodeOp (modeBit m') c' = .ok F → m = m' ∧ c = c') ∧
  (∀ (m : ConversionMode) (c : Nat) (F : Frame), encodeOp (modeBit m) c = .ok F →
    F &&& 0xFE000003#32 = F &&& 0xF8000000#32 ∧ F &&& 0xF8000000#32 ≠ 0#32 ∧
    decodeOp (bytesOfFrame F) = .err (.malformedResponse F))

/-- R47, whole: the frames ENCODE produces are exactly those with F & 0x87FFFFFF = 0x80000000, one per pair of a mode and
one of the 8 channels. -/
def Obligations.CommandFramesAreOnePerModeAndChannel : Prop :=
  (∀ F : Frame, F &&& 0x87FFFFFF#32 = 0x80000000#32 ↔ ∃ (m : ConversionMode) (c : Nat), encodeOp (modeBit m) c = .ok F) ∧
  (∀ F : Frame, F &&& 0x87FFFFFF#32 = 0x80000000#32 →
    ∃! p : ConversionMode × Fin 8, encodeOp (modeBit p.1) p.2.val = .ok F) ∧
  Nat.card { F : Frame // F &&& 0x87FFFFFF#32 = 0x80000000#32 } = 16

/-- R49, whole: the mode is frame bit 30 and affects no other bit of the command frame. -/
def Obligations.ModeAffectsBitThirtyOnly : Prop :=
  (∀ bit : BitVec 1, placeMode bit = bit.setWidth 32 <<< 30) ∧
  (∀ (c : Nat) (F G : Frame),
    encodeOp (modeBit .singleEnded) c = .ok F → encodeOp (modeBit .pseudoDifferential) c = .ok G →
    F.getLsbD 30 = true ∧ G.getLsbD 30 = false ∧ F ^^^ G = 0x40000000#32)

/-- R50, whole: frame bits 29..27 hold the channel's three bits, once the channel is known to be one of 0..7. -/
def Obligations.ChannelBitsStandAtTwentySeven : Prop :=
  (∀ c : Nat, placeChannel c = (BitVec.ofNat 3 c).setWidth 32 <<< 27) ∧
  (∀ (m : ConversionMode) (c : Nat) (F : Frame), encodeOp (modeBit m) c = .ok F →
    c ≤ 7 ∧ F.getLsbD 29 = c.testBit 2 ∧ F.getLsbD 28 = c.testBit 1 ∧ F.getLsbD 27 = c.testBit 0)

/-! ### DECODE, step by step -/

/-- R62, whole: step 1 and its corner cases. -/
def Obligations.ZeroCheckReadsTheMandatoryZeroBits : Prop :=
  (∀ F : Frame, zeroCheck F = .err (.malformedResponse F) ↔
    ∃ i ∈ [31, 30, 29, 28, 27, 26, 25, 1, 0], F.getLsbD i = true) ∧
  (∀ F : Frame, zeroCheck F = if F &&& 0xFE000003#32 ≠ 0#32 then .err (.malformedResponse F) else .ok ()) ∧
  zeroCheck 0x00000000#32 = .ok () ∧ zeroCheck 0x01FFFFFC#32 = .ok () ∧
  zeroCheck 0xFFFFFFFF#32 = .err (.malformedResponse 0xFFFFFFFF#32) ∧
  zeroCheck 0x00000001#32 = .err (.malformedResponse 0x00000001#32) ∧
  zeroCheck 0x80000000#32 = .err (.malformedResponse 0x80000000#32) ∧
  (∀ (m : ConversionMode) (c : Nat) (F : Frame), encodeOp (modeBit m) c = .ok F →
    zeroCheck F = .err (.malformedResponse F))

/-- R64, whole: step 2 compares the frame with its realigned mirror image; with its corner cases. -/
def Obligations.ChecksumCheckComparesTheMirrorImage : Prop :=
  (∀ F : Frame, checksumCheck F = if rev F >>> 5 ≠ F then .err (.checksumMismatch F) else .ok ()) ∧
  (∀ (F : Frame) (i : Nat), i < 32 → (rev F).getLsbD i = F.getLsbD (31 - i)) ∧
  checksumCheck 0x00000000#32 = .ok () ∧ rev 0x01FFFFFC#32 = 0x3FFFFF80#32 ∧ checksumCheck 0x01FFFFFC#32 = .ok () ∧
  checksumCheck 0x00002000#32 = .ok () ∧ checksumCheck 0x00001000#32 = .err (.checksumMismatch 0x00001000#32)

/-- R65, whole: Align has both cases, and at this hardware's constants it is the right shift by 5. -/
def Obligations.AlignShiftsRightByFive : Prop :=
  (∀ y : Frame, align y = if 0 ≤ Config.mirrorT then y <<< Config.mirrorT.toNat else y >>> (-Config.mirrorT).toNat) ∧
  Config.mirrorT = 2 * (Config.sampleLo : Int) - ((Config.frameW : Int) - 1) ∧ Config.mirrorT = -5 ∧
  (∀ y : Frame, align y = y >>> 5)

/-- R66, whole: the bit-level form of step 2, and the proof sketch's reading of the realigned reversal. -/
def Obligations.ChecksumCheckBitByBit : Prop :=
  (∀ F : Frame, F &&& 0xFE000003#32 = 0#32 →
    (checksumCheck F = .err (.checksumMismatch F) ↔
      ∃ k, 1 ≤ k ∧ k ≤ 11 ∧ F.getLsbD (13 - k) ≠ F.getLsbD (13 + k)) ∧
    (checksumCheck F = .ok () ↔ F.extractLsb' 2 11 = rev (F.extractLsb' 14 11))) ∧
  (∀ (F : Frame) (j : Nat),
    (j ≤ 26 → (rev F >>> 5).getLsbD j = F.getLsbD (26 - j)) ∧ (27 ≤ j → (rev F >>> 5).getLsbD j = false))

/-- R70, whole: step 3 is the slice F[24:13], unsigned, for every frame. -/
def Obligations.ExtractSampleTakesTheSampleField : Prop :=
  (∀ F : Frame, extractSample F = F.extractLsb' 13 12) ∧
  (∀ F : Frame, (extractSample F).setWidth 32 = (F >>> 13) &&& 0xFFF#32) ∧
  (∀ F : Frame, (extractSample F).toNat = (F.toNat / 2 ^ 13) % 2 ^ 12 ∧ (extractSample F).toNat ≤ 4095) ∧
  (∀ (F : Frame) (n : Nat), 12 ≤ n → ((extractSample F).setWidth n).toNat = (extractSample F).toNat) ∧
  (∀ (F G : Frame), (∀ i, 13 ≤ i → i ≤ 24 → F.getLsbD i = G.getLsbD i) → extractSample F = extractSample G) ∧
  extractSample 0x00AAAAA8#32 = 0x555#12

/-- R67, whole: DECODE completes in every state, with the result and on the ports as the rule says; with its corner
cases. -/
def Obligations.DecodeValidatesAndExtracts : Prop :=
  (∀ (b : Bytes4) (s : State), ∃ t : State,
    exec (.decode b) s = .next t ∧ t.decFrame = b.b0 ++ b.b1 ++ b.b2 ++ b.b3 ∧
    (t.decFrame &&& 0xFE000003#32 ≠ 0#32 →
      t.decResult = .err (.malformedResponse t.decFrame) ∧ t.decStatus = 1#2 ∧ t.decErrFrame = some t.decFrame) ∧
    (t.decFrame &&& 0xFE000003#32 = 0#32 → rev t.decFrame >>> 5 ≠ t.decFrame →
      t.decResult = .err (.checksumMismatch t.decFrame) ∧ t.decStatus = 2#2 ∧ t.decErrFrame = some t.decFrame) ∧
    (t.decFrame &&& 0xFE000003#32 = 0#32 → rev t.decFrame >>> 5 = t.decFrame →
      t.decResult = .ok (t.decFrame.extractLsb' 13 12) ∧ t.decStatus = 0#2 ∧
      t.decSample = some (t.decFrame.extractLsb' 13 12))) ∧
  decodeFrame 0x00000000#32 = .ok 0#12 ∧ decodeFrame 0x01FFFFFC#32 = .ok 4095#12 ∧
  decodeFrame 0xFFFFFFFF#32 = .err (.malformedResponse 0xFFFFFFFF#32) ∧
  decodeFrame 0x80001000#32 = .err (.malformedResponse 0x80001000#32) ∧
  decodeOp { b0 := 0x01#8, b1 := 0xFF#8, b2 := 0xFF#8, b3 := 0xFC#8 } = .ok 4095#12 ∧
  (∀ s : Sample, decodeFrame (respFrame s ^^^ 0x00002000#32) = .ok (s ^^^ 1#12)) ∧
  (∀ (F : Frame) (v : Sample), decodeFrame F = .ok v → v.toNat ≤ 4095)

/-! ### DECODE as a whole -/

/-- R68, whole: every single-bit flip of a valid frame, and the two general clauses after (d). -/
def Obligations.SingleBitFlipsOfAValidFrame : Prop :=
  (∀ (s : Sample) (j : Nat), j < 32 →
    ((j ≤ 1 ∨ 25 ≤ j) → decodeFrame (respFrame s ^^^ (1#32 <<< j)) = .err (.malformedResponse (respFrame s ^^^ (1#32 <<< j)))) ∧
    (2 ≤ j → j ≤ 12 → decodeFrame (respFrame s ^^^ (1#32 <<< j)) = .err (.checksumMismatch (respFrame s ^^^ (1#32 <<< j)))) ∧
    (14 ≤ j → j ≤ 24 → decodeFrame (respFrame s ^^^ (1#32 <<< j)) = .err (.checksumMismatch (respFrame s ^^^ (1#32 <<< j)))) ∧
    (j = 13 → decodeFrame (respFrame s ^^^ (1#32 <<< j)) = .ok (s ^^^ 1#12))) ∧
  (∀ (s : Sample) (d : Frame), (∀ i, i ≠ 13 → d.getLsbD i = false) → ∃ v, decodeFrame (respFrame s ^^^ d) = .ok v) ∧
  (∀ (s : Sample) (d : Frame), d &&& 0xFE000003#32 = 0#32 →
    (∀ k, k ≤ 11 → d.getLsbD (13 - k) = d.getLsbD (13 + k)) → ∃ v, decodeFrame (respFrame s ^^^ d) = .ok v)

/-- R69, whole: the all-zero frame is sample 0, in every state; a real reading of 0 is the same four bytes, so the block
cannot tell the two cases apart. -/
def Obligations.AllZeroFrameIsSampleZero : Prop :=
  (∀ s : State, ∃ t, exec (.decode { b0 := 0x00#8, b1 := 0x00#8, b2 := 0x00#8, b3 := 0x00#8 }) s = .next t ∧
    t.decResult = .ok 0#12 ∧ t.decStatus = 0#2 ∧ t.decSample = some 0#12) ∧
  bytesOfFrame (respFrame 0#12) = { b0 := 0x00#8, b1 := 0x00#8, b2 := 0x00#8, b3 := 0x00#8 }

/-- R72, whole: the valid response frame, as an expression and bit by bit. -/
def Obligations.RespFrameBitByBit : Prop :=
  ∀ s : Sample,
    respFrame s = (s.setWidth 32 <<< 13) ||| ((rev (s.extractLsb' 1 11)).setWidth 32 <<< 2) ∧
    (∀ k, k ≤ 11 → (respFrame s).getLsbD (13 + k) = s.getLsbD k) ∧
    (∀ k, 1 ≤ k → k ≤ 11 → (respFrame s).getLsbD (13 - k) = s.getLsbD k) ∧
    (∀ i, 25 ≤ i → (respFrame s).getLsbD i = false) ∧
    (respFrame s).getLsbD 1 = false ∧ (respFrame s).getLsbD 0 = false

/-- R73, whole: the checksum field as a number, with the rule's examples. -/
def Obligations.RespFrameChecksumField : Prop :=
  (∀ s : Sample, cksumField (respFrame s) = rev (s.extractLsb' 1 11) ∧
    ∀ j, j ≤ 10 → (cksumField (respFrame s)).getLsbD j = s.getLsbD (11 - j)) ∧
  (∀ row ∈ ([(0x000#12, 0x000#11, 0x00000000#32), (0x001#12, 0x000#11, 0x00002000#32), (0x002#12, 0x400#11, 0x00005000#32),
      (0x800#12, 0x001#11, 0x01000004#32), (0x555#12, 0x2AA#11, 0x00AAAAA8#32), (0xAAA#12, 0x555#11, 0x01555554#32),
      (0xFFF#12, 0x7FF#11, 0x01FFFFFC#32)] : List (Sample × BitVec 11 × Frame)),
    cksumField (respFrame row.1) = row.2.1 ∧ respFrame row.1 = row.2.2)

/-- R74, whole: the round trip, for every one of the 4096 samples. -/
def Obligations.DecodeReturnsTheSampleSent : Prop :=
  ∀ s : Sample, decodeOp (bytesOfFrame (respFrame s)) = .ok s

/-- R75, whole: DECODE accepts exactly the frames RespFrame builds, 4096 of them, one per sample. -/
def Obligations.DecodeAcceptsExactlyTheRespFrames : Prop :=
  (∀ (F : Frame) (s : Sample), decodeOp (bytesOfFrame F) = .ok s ↔ F = respFrame s) ∧
  (∀ s s' : Sample, respFrame s = respFrame s' → s = s') ∧
  Nat.card { F : Frame // ∃ s, decodeOp (bytesOfFrame F) = .ok s } = 4096

/-- R54, whole: every response frame is malformed, a checksum mismatch or valid, and how many there are of each. -/
def Obligations.ResponseFramesByClass : Prop :=
  (∀ F : Frame, F &&& 0xFE000003#32 ≠ 0#32 → decodeFrame F = .err (.malformedResponse F)) ∧
  (∀ F : Frame, F &&& 0xFE000003#32 = 0#32 → F.extractLsb' 2 11 ≠ rev (F.extractLsb' 14 11) →
    decodeFrame F = .err (.checksumMismatch F)) ∧
  (∀ F : Frame, F &&& 0xFE000003#32 = 0#32 → F.extractLsb' 2 11 = rev (F.extractLsb' 14 11) →
    decodeFrame F = .ok (F.extractLsb' 13 12)) ∧
  Nat.card { F : Frame // F &&& 0xFE000003#32 ≠ 0#32 } = 2 ^ 32 - 2 ^ 23 ∧
  Nat.card { F : Frame // F &&& 0xFE000003#32 = 0#32 ∧ F.extractLsb' 2 11 ≠ rev (F.extractLsb' 14 11) } = 2 ^ 23 - 2 ^ 12 ∧
  Nat.card { F : Frame // F &&& 0xFE000003#32 = 0#32 ∧ F.extractLsb' 2 11 = rev (F.extractLsb' 14 11) } = 2 ^ 12

/-- R52, whole: in every frame DECODE accepts, the checksum field is the sample field mirrored about bit 13, without the
sample's least significant bit; bit 13 has no copy; and a frame with clear mandatory-zero bits that is mirrored so is
accepted. -/
def Obligations.AcceptedFramesMirrorAboutBitThirteen : Prop :=
  (∀ (F : Frame) (v : Sample), decodeFrame F = .ok v →
    (∀ k, 1 ≤ k → k ≤ 11 → F.getLsbD (13 - k) = F.getLsbD (13 + k) ∧ F.getLsbD (13 - k) = v.getLsbD k) ∧
    cksumField F = rev (v.extractLsb' 1 11) ∧
    decodeFrame (F ^^^ 0x00002000#32) = .ok (v ^^^ 1#12)) ∧
  (∀ F : Frame, F &&& 0xFE000003#32 = 0#32 →
    (∀ k, 1 ≤ k → k ≤ 11 → F.getLsbD (13 - k) = F.getLsbD (13 + k)) → ∃ v, decodeFrame F = .ok v)

/-- R84, whole: step 1 before step 2, one error kind of ENCODE, and no influence between the two datapaths. -/
def Obligations.StructuralErrorComesFirst : Prop :=
  (∀ F : Frame, F &&& 0xFE000003#32 ≠ 0#32 → rev F >>> 5 ≠ F → decodeFrame F = .err (.malformedResponse F)) ∧
  decodeFrame 0x80001000#32 = .err (.malformedResponse 0x80001000#32) ∧
  (∀ (bit : BitVec 1) (c : Nat) (e : EncodeError), encodeOp bit c = .err e → e = .channelOutOfRange c) ∧
  (∀ s t : State, s.encMode = t.encMode → s.encChannel = t.encChannel → s.encResult = t.encResult) ∧
  (∀ s t : State, s.decBytes = t.decBytes → s.decResult = t.decResult)

/-! ### Byte order -/

/-- R32, whole: a frame's bytes, most significant first, with the worked example. -/
def Obligations.FrameSplitsMostSignificantByteFirst : Prop :=
  (∀ (F : Frame) (i : Nat), i < 8 →
    (bytesOfFrame F).b0.getLsbD i = F.getLsbD (24 + i) ∧ (bytesOfFrame F).b1.getLsbD i = F.getLsbD (16 + i) ∧
    (bytesOfFrame F).b2.getLsbD i = F.getLsbD (8 + i) ∧ (bytesOfFrame F).b3.getLsbD i = F.getLsbD i) ∧
  bytesOfFrame 0xC0000000#32 = { b0 := 0xC0#8, b1 := 0x00#8, b2 := 0x00#8, b3 := 0x00#8 }

/-- R33, whole: the frame of four bytes, in both of the rule's forms, and the two conversions as mutual inverses. -/
def Obligations.BytesAndFrameAreInverse : Prop :=
  (∀ b : Bytes4, frameOfBytes b = b.b0 ++ b.b1 ++ b.b2 ++ b.b3) ∧
  (∀ b : Bytes4, frameOfBytes b =
    (b.b0.setWidth 32 <<< 24) ||| (b.b1.setWidth 32 <<< 16) ||| (b.b2.setWidth 32 <<< 8) ||| b.b3.setWidth 32) ∧
  (∀ b : Bytes4, (frameOfBytes b).getLsbD 31 = b.b0.getLsbD 7) ∧
  (∀ F : Frame, frameOfBytes (bytesOfFrame F) = F) ∧ (∀ b : Bytes4, bytesOfFrame (frameOfBytes b) = b)

/-! ### Results on the ports -/

/-- R80, whole: what each result code stands for, in every state. -/
def Obligations.ResultCodesNameTheResult : Prop :=
  ∀ s : State,
    (s.encErr = 0#1 ↔ ∃ F, s.encResult = .ok F) ∧
    (s.encErr = 1#1 ↔ ∃ v, s.encResult = .err (.channelOutOfRange v)) ∧
    (s.decStatus = 0#2 ↔ ∃ v, s.decResult = .ok v) ∧
    (s.decStatus = 1#2 ↔ ∃ F, s.decResult = .err (.malformedResponse F)) ∧
    (s.decStatus = 2#2 ↔ ∃ F, s.decResult = .err (.checksumMismatch F)) ∧
    s.decStatus ≠ 3#2

/-- Derived from R81: the model never drives `dec_status` = 3, and reads a 3 seen from outside as a fault. That the fault
stands in the reading of a code is the model's own (log entry 10). -/
def Obligations.StatusThreeIsNeverDriven : Prop :=
  (∀ s : State, s.decStatus ≠ 3#2 ∧ ∃ k, readDecStatus s.decStatus = .ok k) ∧
  (∀ code : BitVec 2, readDecStatus code = .error .decStatusThree ↔ code = 3#2)

/-- R77, whole: the record of ChannelOutOfRange, in every state; no frame is produced. -/
def Obligations.ChannelOutOfRangeRecord : Prop :=
  ∀ s : State,
    (s.encErr = 1#1 ↔ 7 < s.encChannel) ∧
    (7 < s.encChannel →
      s.encResult = .err (.channelOutOfRange s.encChannel) ∧ s.encErrValue = some s.encChannel ∧
      ∀ F, s.encFrame ≠ some F)

/-- R78 and R79, whole: the records of the two decode errors, in every state. -/
def Obligations.DecodeErrorRecords : Prop :=
  ∀ s : State,
    (s.decStatus = 1#2 ↔ s.decFrame &&& 0xFE000003#32 ≠ 0#32) ∧
    (s.decStatus = 1#2 → s.decErrFrame = some s.decFrame) ∧
    (s.decStatus = 2#2 ↔ s.decFrame &&& 0xFE000003#32 = 0#32 ∧ rev s.decFrame >>> 5 ≠ s.decFrame) ∧
    (s.decStatus = 2#2 → s.decErrFrame = some s.decFrame)

/-- R30, whole: a port carries a value exactly when it carries the current result. That "no value" is `none` is the
model's reading (log entry 3). -/
def Obligations.PortsOutsideTheResultCarryNothing : Prop :=
  ∀ s : State,
    (s.encFrame.isSome ↔ s.encErr = 0#1) ∧ (s.encBytes.isSome ↔ s.encErr = 0#1) ∧
    (s.encErrValue.isSome ↔ s.encErr = 1#1) ∧ (s.decSample.isSome ↔ s.decStatus = 0#2) ∧
    (s.decErrFrame.isSome ↔ s.decStatus ≠ 0#2)

/-- Derived from R11, R27: in a state that meets the invariant, the error value on its port is above 7 and fits CH_IN_W
bits. CH_IN_W as a field of State is the model's choice (log entry 1). -/
def Obligations.ErrorValueFitsItsPort : Prop :=
  ∀ (s : State) (v : Nat), s.Inv → s.encErrValue = some v → 7 < v ∧ v < 2 ^ s.chInW

/-! ### Frames, purity, order -/

/-- Derived from R21, R26, R28, R57: the whole next state of the two operations. The wires carry the request, `res` takes
the result, and ENCODE's `cmd` the command frame's bytes or none; every other field is unchanged. That `res` takes the
result of a DECODE with operands is the model's own (log entry 7). -/
def Obligations.OperationsNextState : Prop :=
  (∀ (m : ConversionMode) (c : Nat) (s : State), 7 < c →
    exec (.encode m c) s = .next { s with
      encMode := modeBit m, encChannel := c
      res := some (.encoded (.err (.channelOutOfRange c))), cmd := none }) ∧
  (∀ (m : ConversionMode) (c : Nat) (s : State), c ≤ 7 →
    exec (.encode m c) s = .next { s with
      encMode := modeBit m, encChannel := c
      res := some (.encoded (.ok (commandFrame (modeBit m) c)))
      cmd := some (bytesOfFrame (commandFrame (modeBit m) c)) }) ∧
  (∀ (b : Bytes4) (s : State),
    exec (.decode b) s = .next { s with decBytes := b, res := some (.decoded (decodeOp b)) })

/-- Derived from R19, R38, R89: what the two operations leave unchanged. ENCODE: the decoder's wire and result, `rsp` and
the environment; DECODE: the encoder's wires and result, `cmd`, `rsp` and the environment. -/
def Obligations.OperationsKeepTheirFrame : Prop :=
  (∀ (m : ConversionMode) (c : Nat) (s : State), ∃ t, exec (.encode m c) s = .next t ∧
    t.decBytes = s.decBytes ∧ t.decResult = s.decResult ∧ t.decStatus = s.decStatus ∧ t.decSample = s.decSample ∧
    t.decErrFrame = s.decErrFrame ∧ t.rsp = s.rsp ∧ t.chInW = s.chInW ∧ t.program = s.program ∧
    t.answers = s.answers ∧ t.exchanges = s.exchanges) ∧
  (∀ (b : Bytes4) (s : State), ∃ t, exec (.decode b) s = .next t ∧
    t.encMode = s.encMode ∧ t.encChannel = s.encChannel ∧ t.encResult = s.encResult ∧ t.encErr = s.encErr ∧
    t.encFrame = s.encFrame ∧ t.encBytes = s.encBytes ∧ t.encErrValue = s.encErrValue ∧ t.cmd = s.cmd ∧ t.rsp = s.rsp ∧
    t.chInW = s.chInW ∧ t.program = s.program ∧ t.answers = s.answers ∧ t.exchanges = s.exchanges)

/-- Derived from R38: evaluating an operation again with the same inputs gives the same result and changes nothing. The
harness cells are part of the state compared, and that a DECODE with operands sets `res` is THE MODEL'S CHOICE
(log entry 7). -/
def Obligations.OperationsAreIdempotent : Prop :=
  ∀ (i : Instr) (s : State), ∃ t, exec i s = .next t ∧ exec i t = .next t

/-- Derived from R19, R24, R40: an operation's result is the same whatever the state it runs in, so nothing of an earlier
operation, of the caller or of the transport is learnt from it. For DECODE the clause on the cell `res` rests on THE
MODEL'S CHOICE that a DECODE with operands sets `res` (log entry 7); the clauses on the block's results do not. -/
def Obligations.ResultsDoNotDependOnTheState : Prop :=
  ∀ (i : Instr) (s s' : State), ∃ t t', exec i s = .next t ∧ exec i s' = .next t' ∧ t.res = t'.res ∧
    (∀ m c, i = .encode m c → t.encResult = t'.encResult ∧ t.cmd = t'.cmd) ∧
    (∀ b, i = .decode b → t.decResult = t'.decResult)

/-- Derived from R40, R89: an ENCODE and a DECODE, in either order, leave the same state, but for the harness cell `res`,
which holds the last result. What `res` holds after a DECODE with operands is THE MODEL'S CHOICE (log entry 7). -/
def Obligations.EncodeAndDecodeCommute : Prop :=
  ∀ (m : ConversionMode) (c : Nat) (b : Bytes4) (s : State), ∃ t1 t2 u1 u2,
    exec (.encode m c) s = .next t1 ∧ exec (.decode b) t1 = .next t2 ∧
    exec (.decode b) s = .next u1 ∧ exec (.encode m c) u1 = .next u2 ∧
    { t2 with res := none } = { u2 with res := none } ∧ t2.res = u1.res ∧ u2.res = t1.res

/-- Derived from R58, R89: both requests presented at once leave the state, and so both datapaths' results, that
presenting the one and then the other leaves. THE MODEL'S CHOICE: the line both, and that `res` then holds the decoder's
result (log entry 6); that a DECODE with operands sets `res` (log entry 7); that a step takes the caller's next line
(log entry 5). -/
def Obligations.BothAtOnceGiveBothResults : Prop :=
  ∀ (bit : BitVec 1) (c : Nat) (b : Bytes4) (s : State) (rest : List HarnessForm),
    s.program = .both bit (Int.ofNat c) (listOfBytes b) :: rest → c < 2 ^ s.chInW →
    ∃ t, step s = .next t ∧ t.encResult = encodeOp bit c ∧ t.decResult = decodeOp b ∧
      run 2 { s with program := .request (.enc bit (Int.ofNat c)) :: .request (.dec (listOfBytes b)) :: rest } = .next t

/-! ### The harness and the transport -/

/-- Derived from R43, R57, R98: XFER makes no exchange when `cmd` is none; otherwise `rsp` takes the answer of one
exchange of exactly the bytes `cmd` holds, and nothing but `rsp` and the environment's side changes. THE MODEL'S CHOICE:
the scripted answers, which come whatever is sent; the exchange counter; and, where none is scripted, the free answer
Config.exchangeAnswer at that counter to the bytes sent, of which nothing is known (log entry 4); that a step takes the
caller's next line (log entry 5). -/
def Obligations.XferExchangesOnlyACommand : Prop :=
  (∀ (s : State) (rest : List HarnessForm), s.program = .xfer :: rest → s.cmd = none →
    step s = .next { s with program := rest }) ∧
  (∀ (s : State) (rest : List HarnessForm) (out : Bytes4) (a : Answer) (more : List Answer),
    s.program = .xfer :: rest → s.cmd = some out → s.answers = a :: more →
    step s = .next { s with program := rest, rsp := some a, answers := more, exchanges := s.exchanges + 1 }) ∧
  (∀ (s : State) (rest : List HarnessForm) (out : Bytes4),
    s.program = .xfer :: rest → s.cmd = some out → s.answers = [] →
    step s = .next { s with
      program := rest, rsp := some (Config.exchangeAnswer s.exchanges out), exchanges := s.exchanges + 1 })

/-- Derived from R57, R90: DECODE without operands decodes the 4 bytes `rsp` holds; when `rsp` is IoFailure or none,
nothing happens. That a step takes the caller's next line is the model's choice (log entry 5). -/
def Obligations.DecodeWithoutOperandsReadsTheResponse : Prop :=
  ∀ (s : State) (rest : List HarnessForm), s.program = .decodeResponse :: rest →
    (∀ b, s.rsp = some (.bytes b) →
      step s = .next { s with program := rest, decBytes := b, res := some (.decoded (decodeOp b)) }) ∧
    (s.rsp = some .ioFailure → step s = .next { s with program := rest }) ∧
    (s.rsp = none → step s = .next { s with program := rest })

/-- Derived from R43, R57: READ of a channel 0..7, run to its end, exchanges exactly the command frame's bytes once and
leaves the result of decoding the answer; when the transport fails, the encode result stays (R90). The answer is the
next scripted one, or, where none is scripted, the free answer to the command frame's bytes. THE MODEL'S CHOICE: the
script, the counter and the free answer (log entry 4); the four steps of a READ (log entry 12); that a step takes the
caller's next line (log entry 5). -/
def Obligations.ReadRunsAWholeTransaction : Prop :=
  ∀ (m : ConversionMode) (c : Nat) (s : State) (rest : List HarnessForm),
    c ≤ 7 → 3 ≤ s.chInW → s.program = .read (modeBit m) (Int.ofNat c) :: rest →
    ∃ (F : Frame) (a : Answer) (t : State), encodeOp (modeBit m) c = .ok F ∧ run 4 s = .next t ∧
      t.program = rest ∧ t.cmd = some (bytesOfFrame F) ∧ t.rsp = some a ∧ t.exchanges = s.exchanges + 1 ∧
      (∀ (first : Answer) (more : List Answer), s.answers = first :: more → a = first ∧ t.answers = more) ∧
      (s.answers = [] → a = Config.exchangeAnswer s.exchanges (bytesOfFrame F) ∧ t.answers = []) ∧
      (∀ b, a = .bytes b → t.res = some (.decoded (decodeOp b)) ∧ t.decBytes = b) ∧
      (a = .ioFailure → t.res = some (.encoded (.ok F)) ∧ t.decBytes = s.decBytes)

/-- Derived from R74, R57: a READ whose device answers with the valid frame of a sample ends with that sample. THE MODEL'S
CHOICE: the scripted answers (log entry 4), the four steps of a READ (log entry 12), and that a step takes the caller's
next line (log entry 5). -/
def Obligations.ReadReturnsTheDevicesSample : Prop :=
  ∀ (m : ConversionMode) (c : Nat) (s : State) (rest : List HarnessForm) (v : Sample) (more : List Answer),
    c ≤ 7 → 3 ≤ s.chInW → s.program = .read (modeBit m) (Int.ofNat c) :: rest →
    s.answers = .bytes (bytesOfFrame (respFrame v)) :: more →
    ∃ t, run 4 s = .next t ∧ t.res = some (.decoded (.ok v)) ∧ t.decSample = some v ∧ t.decStatus = 0#2

/-- Derived from R57, R85, R98: a READ of an out-of-range channel makes no exchange and produces no command. THE MODEL'S
CHOICE: the script and the exchange counter (log entry 4), the four steps of a READ and what its last line then does
(log entry 12), and that a step takes the caller's next line (log entry 5). -/
def Obligations.OutOfRangeReadMakesNoExchange : Prop :=
  ∀ (bit : BitVec 1) (c : Nat) (s : State) (rest : List HarnessForm),
    7 < c → c < 2 ^ s.chInW → s.program = .read bit (Int.ofNat c) :: rest →
    ∃ t, run 4 s = .next t ∧ t.cmd = none ∧ t.rsp = s.rsp ∧ t.answers = s.answers ∧ t.exchanges = s.exchanges ∧
      t.encErr = 1#1 ∧ t.encErrValue = some c

/-- Derived from R24, R97: a response is decoded to the same result whatever command was encoded and sent before it: the
block does not check the pairing. The clause on the cell `res` rests on THE MODEL'S CHOICE that a DECODE with operands
sets `res` (log entry 7); the clauses on the decoder's ports do not. -/
def Obligations.PairingIsNotChecked : Prop :=
  ∀ (m m' : ConversionMode) (c c' : Nat) (b : Bytes4) (s : State), ∃ t u t' u',
    exec (.encode m c) s = .next t ∧ exec (.decode b) t = .next u ∧
    exec (.encode m' c') s = .next t' ∧ exec (.decode b) t' = .next u' ∧
    u.res = u'.res ∧ u.decStatus = u'.decStatus ∧ u.decSample = u'.decSample ∧ u.decErrFrame = u'.decErrFrame

/-! ### The machine -/

/-- Derived from R82: a step with nothing to present holds the wires, and with them every result. That this is a step is
the model's own (log entry 5). -/
def Obligations.IdleStepHoldsEverything : Prop :=
  ∀ s : State, s.program = [] → step s = .next s

/-- Derived from R76, R81, R82, by which every error is a data result and `dec_status` 3 is never driven: no step of any
state faults. That the one fault of the model stands in the reading of a status code is the model's choice
(log entries 9 and 10). -/
def Obligations.StepNeverFaults : Prop :=
  ∀ (s : State) (f : Fault), step s ≠ .fault f

/-- Derived from R10, R11, R23: no step changes the parameter CH_IN_W. That it is a field of State is the model's choice
(log entry 1). -/
def Obligations.StepKeepsTheParameter : Prop :=
  ∀ s t : State, step s = .next t → t.chInW = s.chInW

/-- Derived from R11, R31, R94 and 95_test_vectors.md §4: reset meets the invariant, the harness cells are none ("Start
state of every program"), and the caller's program is empty. THE MODEL'S CHOICE: that the caller's program is a field of
State, and empty at reset (log entry 5); the wires' values, of which the invariant's bound on enc_channel uses the 0
(log entry 2); CH_IN_W as a field of State, 8 at reset (log entry 1). That the cells stand in State is the model's own
(log entry 7). -/
def Obligations.ResetMeetsTheInvariant : Prop :=
  State.reset.Inv ∧ State.reset.cmd = none ∧ State.reset.rsp = none ∧ State.reset.res = none ∧ State.reset.program = []

/-- Derived from R11, R26, R31, R57, R82: every step keeps the invariant: the ports are wide enough and carry what fits
them, `cmd` holds the current command frame's bytes, and `res` the current result. THE MODEL'S CHOICE: that a DECODE with
operands sets `res`, without which a DECODE result in `res` need not be the current one (log entry 7); CH_IN_W as a field
of State (log entry 1); `res` after both requests at once (log entry 6). -/
def Obligations.StepKeepsTheInvariant : Prop :=
  ∀ s t : State, s.Inv → step s = .next t → t.Inv

/-- R6, R7, R8 and R9, whole: the derived positions, widths, masks and the mirror constants, by the formulas and with the
stated values. -/
def Obligations.DerivedConstantsHaveTheirValues : Prop :=
  (Config.startPos = Config.frameW - 1 ∧ Config.modePos = Config.frameW - Config.startW - 1 ∧
    Config.chanHi = Config.frameW - Config.startW - Config.modeW - 1 ∧
    Config.chanLo = Config.frameW - Config.startW - Config.modeW - Config.chanW ∧
    Config.waitPos = Config.chanLo - Config.waitW ∧ Config.zeroPos = Config.waitPos - Config.zeroW ∧
    Config.sampleHi = Config.zeroPos - 1 ∧
    Config.sampleLo = Config.frameW - Config.startW - Config.modeW - Config.chanW - Config.waitW - Config.zeroW - Config.res ∧
    Config.cksumHi = Config.sampleLo - 1 ∧ Config.cksumLo = Config.sampleLo - Config.cksumW ∧
    Config.padHi = Config.cksumLo - 1) ∧
  (Config.startPos = 31 ∧ Config.modePos = 30 ∧ Config.chanHi = 29 ∧ Config.chanLo = 27 ∧ Config.waitPos = 26 ∧
    Config.zeroPos = 25 ∧ Config.sampleHi = 24 ∧ Config.sampleLo = 13 ∧ Config.cksumHi = 12 ∧ Config.cksumLo = 2 ∧
    Config.padHi = 1 ∧ Config.padLo = 0) ∧
  (Config.cksumW = Config.res - 1 ∧ Config.cksumW = 11 ∧ Config.padW = Config.sampleLo - Config.cksumW ∧ Config.padW = 2 ∧
    Config.startW + Config.modeW + Config.chanW + Config.waitW + Config.zeroW + Config.res + Config.cksumW + Config.padW
      = Config.frameW ∧ Config.frameW = 32) ∧
  (startMask = 0x80000000#32 ∧ modeMask = 0x40000000#32 ∧ chanMask = 0x38000000#32 ∧ waitMask = 0x04000000#32 ∧
    zeroMask = 0x02000000#32 ∧ sampleMask = 0x01FFE000#32 ∧ cksumMask = 0x00001FFC#32 ∧ padMask = 0x00000003#32 ∧
    mzMask = 0xFE000003#32 ∧ mzMask = ~~~ (sampleMask ||| cksumMask)) ∧
  (Config.mirrorT = 2 * (Config.sampleLo : Int) - ((Config.frameW : Int) - 1) ∧ Config.mirrorT = -5 ∧
    (∀ (F : Frame) (i : Nat), i < 32 → (rev F).getLsbD (31 - i) = F.getLsbD i) ∧
    (∀ y : Frame, align y = if 0 ≤ Config.mirrorT then y <<< Config.mirrorT.toNat else y >>> (-Config.mirrorT).toNat) ∧
    ∀ y : Frame, align y = y >>> 5)
end

