-- ==== Sys2Proof/Laws/Frame.lean ====
section
/-! SUPPORT. Laws/Frame.lean: the values of the constants and masks, and the bits of the frame functions. -/

namespace Sys2Proof.Machine

open Sys2Proof

/-! ### Constants (00_scope.md R6, R7, R9) -/

@[simp] theorem startPos_val : Config.startPos = 31 := rfl
@[simp] theorem modePos_val : Config.modePos = 30 := rfl
@[simp] theorem chanHi_val : Config.chanHi = 29 := rfl
@[simp] theorem chanLo_val : Config.chanLo = 27 := rfl
@[simp] theorem waitPos_val : Config.waitPos = 26 := rfl
@[simp] theorem zeroPos_val : Config.zeroPos = 25 := rfl
@[simp] theorem sampleHi_val : Config.sampleHi = 24 := rfl
@[simp] theorem sampleLo_val : Config.sampleLo = 13 := rfl
@[simp] theorem cksumHi_val : Config.cksumHi = 12 := rfl
@[simp] theorem cksumLo_val : Config.cksumLo = 2 := rfl
@[simp] theorem padHi_val : Config.padHi = 1 := rfl
@[simp] theorem padLo_val : Config.padLo = 0 := rfl
@[simp] theorem mirrorT_val : Config.mirrorT = -5 := rfl
@[simp] theorem maxChannel_val : Config.maxChannel = 7 := rfl

/-! ### Masks (R8, 30_encoding.md R47) -/

theorem startMask_val : startMask = 0x80000000#32 := by decide
theorem mzMask_val : mzMask = 0xFE000003#32 := by decide
theorem cmdFixedMask_val : cmdFixedMask = 0x87FFFFFF#32 := by decide

/-! ### Reversal and realignment (R14, 41_response_validator.md R65) -/

theorem revFrom_getLsbD (n : Nat) {w : Nat} (v : BitVec w) (i : Nat) :
    (revFrom n v).getLsbD i = (decide (i < n) && v.getLsbD (n - 1 - i)) := by
  induction n generalizing w v i with
  | zero => simp [revFrom]
  | succ n ih =>
    rw [revFrom, BitVec.getLsbD_cons]
    by_cases hi : i = n
    · subst hi; simp
    · rw [if_neg hi, ih, BitVec.getLsbD_ushiftRight]
      by_cases hlt : i < n
      · have h1 : i < n + 1 := by omega
        have h2 : 1 + (n - 1 - i) = n + 1 - 1 - i := by omega
        simp [hlt, h1, h2]
      · have h1 : ¬ i < n + 1 := by omega
        simp [hlt, h1]

/-- rev_N(v)[i] = v[N-1-i] (R14); bits past the width read as 0. -/
theorem rev_getLsbD {n : Nat} (v : BitVec n) (i : Nat) :
    (rev v).getLsbD i = (decide (i < n) && v.getLsbD (n - 1 - i)) := revFrom_getLsbD n v i

/-- At this hardware's constants only the right-shift case of Align is reachable (R9, R65). -/
theorem align_eq (y : Frame) : align y = y >>> 5 := rfl

/-- The realigned mirror image of F, bit by bit (41_response_validator.md R66). -/
theorem alignRev_getLsbD (F : Frame) (j : Nat) :
    (align (rev F)).getLsbD j = (decide (j < 27) && F.getLsbD (26 - j)) := by
  rw [align_eq, BitVec.getLsbD_ushiftRight, rev_getLsbD]
  by_cases h : j < 27
  · have h1 : 5 + j < 32 := by omega
    have h2 : 32 - 1 - (5 + j) = 26 - j := by omega
    simp [h, h1, h2]
  · have h1 : ¬ 5 + j < 32 := by omega
    simp [h, h1]

/-! ### The mandatory-zero bits (R8, R62) -/

/-- Bit `i` of MZ_MASK: set exactly for the bits 31..25 and 1..0. -/
theorem mzMask_getLsbD (i : Nat) : mzMask.getLsbD i = (decide (i < 2) || (decide (25 ≤ i) && decide (i < 32))) := by
  by_cases h : i < 32
  · revert i; decide
  · rw [BitVec.getLsbD_of_ge _ _ (by omega)]
    have h1 : ¬ i < 2 := by omega
    simp [h, h1]

/-- F & MZ_MASK is 0 exactly when the bits 31..25 and 1..0 of F are 0. -/
theorem and_mzMask_eq_zero_iff (F : Frame) :
    F &&& mzMask = 0#32 ↔ ∀ i, i < 32 → (i < 2 ∨ 25 ≤ i) → F.getLsbD i = false := by
  constructor
  · intro h i hi hm
    have hb := congrArg (fun G : Frame => G.getLsbD i) h
    simp only [BitVec.getLsbD_and, mzMask_getLsbD, BitVec.getLsbD_zero] at hb
    rcases hm with hm | hm <;> simpa [hm, hi] using hb
  · intro h
    apply BitVec.eq_of_getLsbD_eq
    intro i hi
    simp only [BitVec.getLsbD_and, mzMask_getLsbD, BitVec.getLsbD_zero]
    by_cases hm : i < 2 ∨ 25 ≤ i
    · simp [h i hi hm]
    · have h1 : ¬ i < 2 := by omega
      have h2 : ¬ 25 ≤ i := by omega
      simp [h1, h2]

/-! ### Bytes and fields -/

/-- Bit `i` of the frame of four bytes (20_memory.md R33). -/
theorem frameOfBytes_getLsbD (b : Bytes4) (i : Nat) :
    (frameOfBytes b).getLsbD i =
      if i < 8 then b.b3.getLsbD i else if i < 16 then b.b2.getLsbD (i - 8)
      else if i < 24 then b.b1.getLsbD (i - 16) else b.b0.getLsbD (i - 24) := by
  unfold frameOfBytes
  simp only [BitVec.getLsbD_append]
  split_ifs <;> first | (exfalso; omega) | rfl

/-- Bit `k` of the sample field is frame bit 13 + k (30_encoding.md R46). -/
theorem sampleField_getLsbD (F : Frame) (k : Nat) :
    (sampleField F).getLsbD k = (decide (k < 12) && F.getLsbD (13 + k)) := by
  simp [sampleField, BitVec.getLsbD_extractLsb']

/-- Bit `k` of the checksum field is frame bit 2 + k (R46). -/
theorem cksumField_getLsbD (F : Frame) (k : Nat) :
    (cksumField F).getLsbD k = (decide (k < 11) && F.getLsbD (2 + k)) := by
  simp [cksumField, BitVec.getLsbD_extractLsb']

/-- Bit `i` of the valid response frame of `s` (42_sample_extractor.md R72). -/
theorem respFrame_getLsbD (s : Sample) (i : Nat) :
    (respFrame s).getLsbD i =
      if i < 2 then false else if i < 13 then s.getLsbD (13 - i) else s.getLsbD (i - 13) := by
  simp only [respFrame, sampleLo_val, cksumLo_val, BitVec.getLsbD_or, BitVec.getLsbD_shiftLeft,
    BitVec.getLsbD_setWidth, rev_getLsbD, BitVec.getLsbD_extractLsb']
  by_cases h32 : i < 32
  · interval_cases i <;> simp
  · rw [if_neg (by omega), if_neg (by omega), BitVec.getLsbD_of_ge s (i - 13) (by omega)]
    simp [h32]

/-! ### Operands (30_encoding.md R49, R50) -/

theorem commandFrame_eq (bit : BitVec 1) (c : Nat) :
    commandFrame bit c =
      0x80000000#32 ||| (bit.setWidth 32 <<< 30) ||| ((BitVec.ofNat 3 c).setWidth 32 <<< 27) := by
  simp only [commandFrame, placeMode, placeChannel, startMask_val, modePos_val, chanLo_val]

theorem legalChannel_eq_true_iff (c : Nat) : legalChannel c = true ↔ c ≤ 7 := by
  rw [legalChannel, decide_eq_true_iff, maxChannel_val]

/-! ### The mode bit (10_state.md R26) -/

@[simp] theorem modeOfBit_modeBit (m : ConversionMode) : modeOfBit (modeBit m) = m := by
  cases m <;> rfl

@[simp] theorem modeBit_modeOfBit (b : BitVec 1) : modeBit (modeOfBit b) = b := by
  revert b; decide

end Sys2Proof.Machine
end

