-- ==== Sys2Proof/Laws/Decode.lean ====
section
/-! SUPPORT. Laws/Decode.lean: what the boundary accepts and refuses. -/

namespace Sys2Proof

open Sys2Proof.Machine

/-- ENCODE fits the port exactly when its channel request does (10_state.md R26). -/
theorem wf_encode_iff (w : Nat) (m : ConversionMode) (c : Nat) : (Instr.encode m c).wf w = true ↔ c < 2 ^ w := by
  rw [Instr.wf, decide_eq_true_iff]

theorem readChannel_ofNat (chInW n : Nat) :
    readChannel chInW (Int.ofNat n) = if n < 2 ^ chInW then .ok n else .error .channelTooWide := rfl

/-- The encoder's boundary accepts exactly the numbers that fit the port (00_scope.md R11). -/
theorem readChannel_eq_ok_iff (chInW : Nat) (z : Int) (n : Nat) :
    readChannel chInW z = .ok n ↔ z = Int.ofNat n ∧ n < 2 ^ chInW := by
  cases z with
  | negSucc k => simp [readChannel]
  | ofNat k =>
    rw [readChannel_ofNat]
    by_cases h : k < 2 ^ chInW
    · rw [if_pos h, Except.ok.injEq, Int.ofNat.injEq]
      constructor
      · rintro rfl; exact ⟨rfl, h⟩
      · exact fun hk => hk.1
    · rw [if_neg h, Int.ofNat.injEq]
      constructor
      · intro hk; cases hk
      · rintro ⟨rfl, hk⟩; exact absurd hk h

theorem readDecBytes_listOfBytes (b : Bytes4) : readDecBytes (listOfBytes b) = .ok b := rfl

/-- The decoder's boundary accepts exactly the byte sequences of four bytes (20_memory.md R36). -/
theorem readDecBytes_cases (bs : List Byte) :
    (∃ b, bs = listOfBytes b ∧ readDecBytes bs = .ok b) ∨ (bs.length ≠ 4 ∧ readDecBytes bs = .error .wrongLength) := by
  match bs with
  | [] => exact .inr ⟨by simp, rfl⟩
  | [_] => exact .inr ⟨by simp, rfl⟩
  | [_, _] => exact .inr ⟨by simp, rfl⟩
  | [_, _, _] => exact .inr ⟨by simp, rfl⟩
  | [b0, b1, b2, b3] => exact .inl ⟨{ b0 := b0, b1 := b1, b2 := b2, b3 := b3 }, rfl, rfl⟩
  | _ :: _ :: _ :: _ :: _ :: _ => exact .inr ⟨by simp, rfl⟩

/-- Everything the boundary can answer with a request. -/
theorem decodeRequest_ok_cases {chInW : Nat} {r : RawRequest} {i : Instr} (h : decodeRequest chInW r = .ok i) :
    (∃ bit c, r = .enc bit (Int.ofNat c) ∧ c < 2 ^ chInW ∧ i = .encode (modeOfBit bit) c) ∨
    (∃ b, r = .dec (listOfBytes b) ∧ i = .decode b) := by
  cases r with
  | enc bit z =>
    simp only [decodeRequest] at h
    split at h
    · rename_i c hc
      obtain ⟨hz, hlt⟩ := (readChannel_eq_ok_iff _ _ _).1 hc
      exact .inl ⟨bit, c, by rw [hz], hlt, by cases h; rfl⟩
    · cases h
  | dec bs =>
    rcases readDecBytes_cases bs with ⟨b, hb, hr⟩ | ⟨_, hr⟩
    · simp only [decodeRequest, hr] at h
      exact .inr ⟨b, by rw [hb], by cases h; rfl⟩
    · simp only [decodeRequest, hr] at h
      cases h
  | noDatapath n w => cases h

/-- A word of 32 bits is read as the frame it is (30_encoding.md R56). -/
theorem decodeTableWord_frame (F : Frame) : decodeTableWord 32 F.toNat = decodeFrameBytes (bytesOfFrame F) := by
  rw [decodeTableWord, if_pos ⟨rfl, F.isLt⟩, BitVec.ofNat_toNat, BitVec.setWidth_eq]

/-- A word of any other length is no frame (R56). -/
theorem decodeTableWord_of_ne {nbits : Nat} (w : Nat) (h : nbits ≠ 32) : decodeTableWord nbits w = none :=
  if_neg fun hw => h hw.1

/-- The two rows of the opcode table share no frame: they differ in a bit both fix. -/
theorem tableRows_disjoint (F : Frame) : ¬ (encodeRow.fits F = true ∧ decodeRow.fits F = true) := by
  rintro ⟨he, hd⟩
  have h1 : F &&& cmdFixedMask = startMask := by simpa [TableRow.fits, encodeRow] using he
  have h2 : F &&& mzMask = 0#32 := by simpa [TableRow.fits, decodeRow] using hd
  have h3 : F.getLsbD 31 = false := (and_mzMask_eq_zero_iff F).1 h2 31 (by omega) (by omega)
  have h4 := congrArg (fun G : Frame => G.getLsbD 31) h1
  rw [cmdFixedMask_val, startMask_val] at h4
  simp only [BitVec.getLsbD_and, h3, Bool.false_and] at h4
  exact absurd h4 (by decide)

end Sys2Proof
end

