-- ==== Sys2Proof/Laws/State.lean ====
section
/-! SUPPORT. Laws/State.lean: one lemma per field per named update of the state, and what each update leaves of the
results on the ports. -/

namespace Sys2Proof.Machine

open Sys2Proof

variable (s : State)

/-! ### presentEncode -/

@[simp] theorem presentEncode_chInW (bit : BitVec 1) (channel : Nat) : (s.presentEncode bit channel).chInW = s.chInW := rfl
@[simp] theorem presentEncode_encMode (bit : BitVec 1) (channel : Nat) : (s.presentEncode bit channel).encMode = bit := rfl
@[simp] theorem presentEncode_encChannel (bit : BitVec 1) (channel : Nat) : (s.presentEncode bit channel).encChannel = channel := rfl
@[simp] theorem presentEncode_decBytes (bit : BitVec 1) (channel : Nat) : (s.presentEncode bit channel).decBytes = s.decBytes := rfl
@[simp] theorem presentEncode_program (bit : BitVec 1) (channel : Nat) : (s.presentEncode bit channel).program = s.program := rfl
@[simp] theorem presentEncode_cmd (bit : BitVec 1) (channel : Nat) : (s.presentEncode bit channel).cmd = s.cmd := rfl
@[simp] theorem presentEncode_rsp (bit : BitVec 1) (channel : Nat) : (s.presentEncode bit channel).rsp = s.rsp := rfl
@[simp] theorem presentEncode_res (bit : BitVec 1) (channel : Nat) : (s.presentEncode bit channel).res = s.res := rfl
@[simp] theorem presentEncode_answers (bit : BitVec 1) (channel : Nat) : (s.presentEncode bit channel).answers = s.answers := rfl
@[simp] theorem presentEncode_exchanges (bit : BitVec 1) (channel : Nat) : (s.presentEncode bit channel).exchanges = s.exchanges := rfl

/-! ### presentDecode -/

@[simp] theorem presentDecode_chInW (b : Bytes4) : (s.presentDecode b).chInW = s.chInW := rfl
@[simp] theorem presentDecode_encMode (b : Bytes4) : (s.presentDecode b).encMode = s.encMode := rfl
@[simp] theorem presentDecode_encChannel (b : Bytes4) : (s.presentDecode b).encChannel = s.encChannel := rfl
@[simp] theorem presentDecode_decBytes (b : Bytes4) : (s.presentDecode b).decBytes = b := rfl
@[simp] theorem presentDecode_program (b : Bytes4) : (s.presentDecode b).program = s.program := rfl
@[simp] theorem presentDecode_cmd (b : Bytes4) : (s.presentDecode b).cmd = s.cmd := rfl
@[simp] theorem presentDecode_rsp (b : Bytes4) : (s.presentDecode b).rsp = s.rsp := rfl
@[simp] theorem presentDecode_res (b : Bytes4) : (s.presentDecode b).res = s.res := rfl
@[simp] theorem presentDecode_answers (b : Bytes4) : (s.presentDecode b).answers = s.answers := rfl
@[simp] theorem presentDecode_exchanges (b : Bytes4) : (s.presentDecode b).exchanges = s.exchanges := rfl

/-! ### presentBoth -/

@[simp] theorem presentBoth_chInW (bit : BitVec 1) (channel : Nat) (b : Bytes4) : (s.presentBoth bit channel b).chInW = s.chInW := rfl
@[simp] theorem presentBoth_encMode (bit : BitVec 1) (channel : Nat) (b : Bytes4) : (s.presentBoth bit channel b).encMode = bit := rfl
@[simp] theorem presentBoth_encChannel (bit : BitVec 1) (channel : Nat) (b : Bytes4) : (s.presentBoth bit channel b).encChannel = channel := rfl
@[simp] theorem presentBoth_decBytes (bit : BitVec 1) (channel : Nat) (b : Bytes4) : (s.presentBoth bit channel b).decBytes = b := rfl
@[simp] theorem presentBoth_program (bit : BitVec 1) (channel : Nat) (b : Bytes4) : (s.presentBoth bit channel b).program = s.program := rfl
@[simp] theorem presentBoth_cmd (bit : BitVec 1) (channel : Nat) (b : Bytes4) : (s.presentBoth bit channel b).cmd = s.cmd := rfl
@[simp] theorem presentBoth_rsp (bit : BitVec 1) (channel : Nat) (b : Bytes4) : (s.presentBoth bit channel b).rsp = s.rsp := rfl
@[simp] theorem presentBoth_res (bit : BitVec 1) (channel : Nat) (b : Bytes4) : (s.presentBoth bit channel b).res = s.res := rfl
@[simp] theorem presentBoth_answers (bit : BitVec 1) (channel : Nat) (b : Bytes4) : (s.presentBoth bit channel b).answers = s.answers := rfl
@[simp] theorem presentBoth_exchanges (bit : BitVec 1) (channel : Nat) (b : Bytes4) : (s.presentBoth bit channel b).exchanges = s.exchanges := rfl

/-! ### recordEncode -/

@[simp] theorem recordEncode_chInW (r : EncodeResult) : (s.recordEncode r).chInW = s.chInW := rfl
@[simp] theorem recordEncode_encMode (r : EncodeResult) : (s.recordEncode r).encMode = s.encMode := rfl
@[simp] theorem recordEncode_encChannel (r : EncodeResult) : (s.recordEncode r).encChannel = s.encChannel := rfl
@[simp] theorem recordEncode_decBytes (r : EncodeResult) : (s.recordEncode r).decBytes = s.decBytes := rfl
@[simp] theorem recordEncode_program (r : EncodeResult) : (s.recordEncode r).program = s.program := rfl
@[simp] theorem recordEncode_cmd (r : EncodeResult) : (s.recordEncode r).cmd = (match r with | .ok F => some (bytesOfFrame F) | .err _ => none) := rfl
@[simp] theorem recordEncode_rsp (r : EncodeResult) : (s.recordEncode r).rsp = s.rsp := rfl
@[simp] theorem recordEncode_res (r : EncodeResult) : (s.recordEncode r).res = some (.encoded r) := rfl
@[simp] theorem recordEncode_answers (r : EncodeResult) : (s.recordEncode r).answers = s.answers := rfl
@[simp] theorem recordEncode_exchanges (r : EncodeResult) : (s.recordEncode r).exchanges = s.exchanges := rfl

/-! ### recordDecode -/

@[simp] theorem recordDecode_chInW (r : DecodeResult) : (s.recordDecode r).chInW = s.chInW := rfl
@[simp] theorem recordDecode_encMode (r : DecodeResult) : (s.recordDecode r).encMode = s.encMode := rfl
@[simp] theorem recordDecode_encChannel (r : DecodeResult) : (s.recordDecode r).encChannel = s.encChannel := rfl
@[simp] theorem recordDecode_decBytes (r : DecodeResult) : (s.recordDecode r).decBytes = s.decBytes := rfl
@[simp] theorem recordDecode_program (r : DecodeResult) : (s.recordDecode r).program = s.program := rfl
@[simp] theorem recordDecode_cmd (r : DecodeResult) : (s.recordDecode r).cmd = s.cmd := rfl
@[simp] theorem recordDecode_rsp (r : DecodeResult) : (s.recordDecode r).rsp = s.rsp := rfl
@[simp] theorem recordDecode_res (r : DecodeResult) : (s.recordDecode r).res = some (.decoded r) := rfl
@[simp] theorem recordDecode_answers (r : DecodeResult) : (s.recordDecode r).answers = s.answers := rfl
@[simp] theorem recordDecode_exchanges (r : DecodeResult) : (s.recordDecode r).exchanges = s.exchanges := rfl

/-! ### withProgram -/

@[simp] theorem withProgram_chInW (p : List HarnessForm) : (s.withProgram p).chInW = s.chInW := rfl
@[simp] theorem withProgram_encMode (p : List HarnessForm) : (s.withProgram p).encMode = s.encMode := rfl
@[simp] theorem withProgram_encChannel (p : List HarnessForm) : (s.withProgram p).encChannel = s.encChannel := rfl
@[simp] theorem withProgram_decBytes (p : List HarnessForm) : (s.withProgram p).decBytes = s.decBytes := rfl
@[simp] theorem withProgram_program (p : List HarnessForm) : (s.withProgram p).program = p := rfl
@[simp] theorem withProgram_cmd (p : List HarnessForm) : (s.withProgram p).cmd = s.cmd := rfl
@[simp] theorem withProgram_rsp (p : List HarnessForm) : (s.withProgram p).rsp = s.rsp := rfl
@[simp] theorem withProgram_res (p : List HarnessForm) : (s.withProgram p).res = s.res := rfl
@[simp] theorem withProgram_answers (p : List HarnessForm) : (s.withProgram p).answers = s.answers := rfl
@[simp] theorem withProgram_exchanges (p : List HarnessForm) : (s.withProgram p).exchanges = s.exchanges := rfl

/-! ### withResponse -/

@[simp] theorem withResponse_chInW (a : Answer) : (s.withResponse a).chInW = s.chInW := rfl
@[simp] theorem withResponse_encMode (a : Answer) : (s.withResponse a).encMode = s.encMode := rfl
@[simp] theorem withResponse_encChannel (a : Answer) : (s.withResponse a).encChannel = s.encChannel := rfl
@[simp] theorem withResponse_decBytes (a : Answer) : (s.withResponse a).decBytes = s.decBytes := rfl
@[simp] theorem withResponse_program (a : Answer) : (s.withResponse a).program = s.program := rfl
@[simp] theorem withResponse_cmd (a : Answer) : (s.withResponse a).cmd = s.cmd := rfl
@[simp] theorem withResponse_rsp (a : Answer) : (s.withResponse a).rsp = some a := rfl
@[simp] theorem withResponse_res (a : Answer) : (s.withResponse a).res = s.res := rfl
@[simp] theorem withResponse_answers (a : Answer) : (s.withResponse a).answers = s.answers := rfl
@[simp] theorem withResponse_exchanges (a : Answer) : (s.withResponse a).exchanges = s.exchanges := rfl

/-! ### afterExchange -/

@[simp] theorem afterExchange_chInW (rest : List Answer) : (s.afterExchange rest).chInW = s.chInW := rfl
@[simp] theorem afterExchange_encMode (rest : List Answer) : (s.afterExchange rest).encMode = s.encMode := rfl
@[simp] theorem afterExchange_encChannel (rest : List Answer) : (s.afterExchange rest).encChannel = s.encChannel := rfl
@[simp] theorem afterExchange_decBytes (rest : List Answer) : (s.afterExchange rest).decBytes = s.decBytes := rfl
@[simp] theorem afterExchange_program (rest : List Answer) : (s.afterExchange rest).program = s.program := rfl
@[simp] theorem afterExchange_cmd (rest : List Answer) : (s.afterExchange rest).cmd = s.cmd := rfl
@[simp] theorem afterExchange_rsp (rest : List Answer) : (s.afterExchange rest).rsp = s.rsp := rfl
@[simp] theorem afterExchange_res (rest : List Answer) : (s.afterExchange rest).res = s.res := rfl
@[simp] theorem afterExchange_answers (rest : List Answer) : (s.afterExchange rest).answers = rest := rfl
@[simp] theorem afterExchange_exchanges (rest : List Answer) : (s.afterExchange rest).exchanges = s.exchanges + 1 := rfl

/-! ### The results on the ports: each depends on its own wires only (10_state.md R19, R31) -/

@[simp] theorem presentEncode_encResult (bit : BitVec 1) (channel : Nat) :
    (s.presentEncode bit channel).encResult = encodeOp bit channel := rfl
@[simp] theorem presentEncode_decResult (bit : BitVec 1) (channel : Nat) :
    (s.presentEncode bit channel).decResult = s.decResult := rfl
@[simp] theorem presentDecode_encResult (b : Bytes4) : (s.presentDecode b).encResult = s.encResult := rfl
@[simp] theorem presentDecode_decResult (b : Bytes4) : (s.presentDecode b).decResult = decodeOp b := rfl
@[simp] theorem presentBoth_encResult (bit : BitVec 1) (channel : Nat) (b : Bytes4) :
    (s.presentBoth bit channel b).encResult = encodeOp bit channel := rfl
@[simp] theorem presentBoth_decResult (bit : BitVec 1) (channel : Nat) (b : Bytes4) :
    (s.presentBoth bit channel b).decResult = decodeOp b := rfl
@[simp] theorem recordEncode_encResult (r : EncodeResult) : (s.recordEncode r).encResult = s.encResult := rfl
@[simp] theorem recordEncode_decResult (r : EncodeResult) : (s.recordEncode r).decResult = s.decResult := rfl
@[simp] theorem recordDecode_encResult (r : DecodeResult) : (s.recordDecode r).encResult = s.encResult := rfl
@[simp] theorem recordDecode_decResult (r : DecodeResult) : (s.recordDecode r).decResult = s.decResult := rfl
@[simp] theorem withProgram_encResult (p : List HarnessForm) : (s.withProgram p).encResult = s.encResult := rfl
@[simp] theorem withProgram_decResult (p : List HarnessForm) : (s.withProgram p).decResult = s.decResult := rfl
@[simp] theorem withResponse_encResult (a : Answer) : (s.withResponse a).encResult = s.encResult := rfl
@[simp] theorem withResponse_decResult (a : Answer) : (s.withResponse a).decResult = s.decResult := rfl
@[simp] theorem afterExchange_encResult (rest : List Answer) : (s.afterExchange rest).encResult = s.encResult := rfl
@[simp] theorem afterExchange_decResult (rest : List Answer) : (s.afterExchange rest).decResult = s.decResult := rfl

/-- The encoder's output ports are functions of its result. -/
theorem encBytes_eq_of_encResult_ok {F : Frame} (h : s.encResult = .ok F) : s.encBytes = some (bytesOfFrame F) := by
  simp [State.encBytes, State.encFrame, h]

/-- After an encoder error `enc_bytes` carries nothing (R30). -/
theorem encBytes_eq_of_encResult_err {e : EncodeError} (h : s.encResult = .err e) : s.encBytes = none := by
  simp [State.encBytes, State.encFrame, h]

end Sys2Proof.Machine
end

