-- ==== Sys2Proof/Laws/Ops.lean ====
section
/-! SUPPORT. Laws/Ops.lean: one lemma per shared operation, saying once everything it can do. -/

namespace Sys2Proof.Machine

open Sys2Proof

/-- ENCODE of one of the 8 channels (40_command_encoder.md R59). -/
theorem encodeOp_of_le {bit : BitVec 1} {c : Nat} (h : c ≤ 7) : encodeOp bit c = .ok (commandFrame bit c) :=
  if_neg (by simp; omega)

/-- ENCODE of any other value (R59, 60_exceptions.md R77). -/
theorem encodeOp_of_gt {bit : BitVec 1} {c : Nat} (h : 7 < c) : encodeOp bit c = .err (.channelOutOfRange c) :=
  if_pos (by simp; omega)

/-- The two ways an ENCODE ends. -/
theorem encodeOp_cases (bit : BitVec 1) (c : Nat) :
    (c ≤ 7 ∧ encodeOp bit c = .ok (commandFrame bit c)) ∨
    (7 < c ∧ encodeOp bit c = .err (.channelOutOfRange c)) := by
  rcases Nat.lt_or_ge 7 c with h | h
  · exact .inr ⟨h, encodeOp_of_gt h⟩
  · exact .inl ⟨h, encodeOp_of_le h⟩

/-- Step 1 passes exactly the frames whose mandatory-zero bits are clear (41_response_validator.md R62). -/
theorem zeroCheck_eq (F : Frame) :
    zeroCheck F = if F &&& mzMask = 0#32 then .ok () else .err (.malformedResponse F) := by
  unfold zeroCheck raise
  by_cases h : F &&& mzMask = 0#32 <;> simp [h]

/-- Step 2 passes exactly the frames that are their own realigned mirror image (R64). -/
theorem checksumCheck_eq (F : Frame) :
    checksumCheck F = if align (rev F) = F then .ok () else .err (.checksumMismatch F) := by
  unfold checksumCheck raise
  by_cases h : align (rev F) = F <;> simp [h]

/-- Step 3 takes the sample field (42_sample_extractor.md R70). -/
theorem extractSample_eq (F : Frame) : extractSample F = sampleField F := by
  apply BitVec.eq_of_getLsbD_eq
  intro i hi
  simp [extractSample, sampleField, BitVec.getLsbD_extractLsb']

/-- The three ways a DECODE ends, in the order of the checks (R67, 60_exceptions.md R84). -/
theorem decodeFrame_cases (F : Frame) :
    (F &&& mzMask ≠ 0#32 ∧ decodeFrame F = .err (.malformedResponse F)) ∨
    (F &&& mzMask = 0#32 ∧ align (rev F) ≠ F ∧ decodeFrame F = .err (.checksumMismatch F)) ∨
    (F &&& mzMask = 0#32 ∧ align (rev F) = F ∧ decodeFrame F = .ok (sampleField F)) := by
  by_cases h1 : F &&& mzMask = 0#32
  · by_cases h2 : align (rev F) = F
    · exact .inr (.inr ⟨h1, h2, by
        simp only [decodeFrame, zeroCheck_eq, checksumCheck_eq, h1, h2, if_true, Result.andThen, extractSample_eq]⟩)
    · exact .inr (.inl ⟨h1, h2, by
        simp only [decodeFrame, zeroCheck_eq, checksumCheck_eq, h1, h2, if_true, if_false, Result.andThen]⟩)
  · exact .inl ⟨h1, by simp only [decodeFrame, zeroCheck_eq, h1, if_false, Result.andThen]⟩

/-- A frame is its own realigned mirror image exactly when every bit equals its mirror about bit 13 and the bits above
26 are 0 (R66). -/
theorem alignRev_eq_iff (F : Frame) :
    align (rev F) = F ↔ ∀ j, j < 32 → F.getLsbD j = (decide (j < 27) && F.getLsbD (26 - j)) := by
  constructor
  · intro h j _
    have hj := alignRev_getLsbD F j
    rwa [h] at hj
  · intro h
    apply BitVec.eq_of_getLsbD_eq
    intro j hj
    rw [alignRev_getLsbD, h j hj]

end Sys2Proof.Machine
end

