-- ==== Sys2Proof/Laws/PerInstr.lean ====
section
/-! SUPPORT. Laws/PerInstr.lean: statements made per instruction (LAWS.json). -/

namespace Sys2Proof.Laws.WiderPort

open Sys2Proof

/-- A wider channel port carries every request a narrower one carries (00_scope.md R11: CH_IN_W is open). -/
def Statement (i : Instr) : Prop := ∀ w w' : Nat, w ≤ w' → i.wf w = true → i.wf w' = true

theorem encode (m : ConversionMode) (c : Nat) : Statement (.encode m c) := by
  intro w w' hw h
  have hc : c < 2 ^ w := by simpa [Instr.wf] using h
  have hle : 2 ^ w ≤ 2 ^ w' := Nat.pow_le_pow_right (by omega) hw
  simpa [Instr.wf] using Nat.lt_of_lt_of_le hc hle

theorem decode (b : Bytes4) : Statement (.decode b) := fun _ _ _ _ => rfl

end Sys2Proof.Laws.WiderPort
end

