-- ==== Sys2Proof/Laws/Step.lean ====
section
/-! SUPPORT. Laws/Step.lean: what each operation, harness form and step can do, said once. -/

namespace Sys2Proof.Machine

open Sys2Proof

/-- ENCODE always completes, with this state. -/
theorem exec_encode (m : ConversionMode) (c : Nat) (s : State) :
    exec (.encode m c) s = .next ((s.presentEncode (modeBit m) c).recordEncode (encodeOp (modeBit m) c)) := rfl

/-- DECODE always completes, with this state. -/
theorem exec_decode (b : Bytes4) (s : State) :
    exec (.decode b) s = .next ((s.presentDecode b).recordDecode (decodeOp b)) := rfl

/-- Every operation completes (60_exceptions.md R76: errors are data). -/
theorem exec_completes (i : Instr) (s : State) : ∃ t, exec i s = .next t := by
  cases i with
  | encode m c => exact ⟨_, exec_encode m c s⟩
  | decode b => exact ⟨_, exec_decode b s⟩

/-- A presented request runs as the instruction the boundary reads. -/
theorem runRequest_of_ok {r : RawRequest} {i : Instr} {s : State} (h : decodeRequest s.chInW r = .ok i) :
    runRequest r s = exec i s := by
  simp [runRequest, h]

/-- A presentation the boundary rejects is refused by name. -/
theorem runRequest_of_error {r : RawRequest} {e : DecodeReject} {s : State} (h : decodeRequest s.chInW r = .error e) :
    runRequest r s = .refused (refusalOf e) := by
  simp [runRequest, h]

/-- What an exchange does to the state: one more exchange, at most one scripted answer used. -/
theorem exchange_snd (s : State) (out : Bytes4) : (exchange s out).2 = s.afterExchange s.answers.tail := by
  unfold exchange
  cases h : s.answers <;> rfl

/-- The answer of an exchange, where one is scripted. -/
theorem exchange_fst_of_cons {s : State} {a : Answer} {rest : List Answer} (out : Bytes4)
    (h : s.answers = a :: rest) : (exchange s out).1 = a := by
  simp [exchange, h]

/-- The answer of an exchange where none is scripted: the free answer to the bytes sent (20_memory.md R43). -/
theorem exchange_fst_of_nil {s : State} (out : Bytes4) (h : s.answers = []) :
    (exchange s out).1 = Config.exchangeAnswer s.exchanges out := by
  simp [exchange, h]

/-- Everything XFER can do (30_encoding.md R57). -/
theorem runXfer_cases (s : State) :
    (s.cmd = none ∧ runXfer s = s) ∨
    (∃ out, s.cmd = some out ∧
      runXfer s = (s.afterExchange s.answers.tail).withResponse (exchange s out).1) := by
  unfold runXfer
  cases h : s.cmd with
  | none => exact .inl ⟨rfl, rfl⟩
  | some out => exact .inr ⟨out, rfl, by simp [exchange_snd]⟩

/-- Everything DECODE without operands can do (R57). -/
theorem runDecodeResponse_cases (s : State) :
    (∃ b, s.rsp = some (.bytes b) ∧ runDecodeResponse s = exec (.decode b) s) ∨
    ((∀ b, s.rsp ≠ some (.bytes b)) ∧ runDecodeResponse s = .next s) := by
  unfold runDecodeResponse
  cases h : s.rsp with
  | none => exact .inr ⟨by simp, rfl⟩
  | some a =>
    cases a with
    | bytes b => exact .inl ⟨b, rfl, rfl⟩
    | ioFailure => exact .inr ⟨by simp, rfl⟩

/-- Both datapaths at once, where the channel integer misfits the port. -/
theorem runBoth_of_channel_error {bit : BitVec 1} {z : Int} {bs : List Byte} {s : State} {e : DecodeReject}
    (h : readChannel s.chInW z = .error e) : runBoth bit z bs s = .refused (refusalOf e) := by
  simp [runBoth, h]

/-- Both datapaths at once, where the channel integer fits and the byte count does not. -/
theorem runBoth_of_bytes_error {bit : BitVec 1} {z : Int} {bs : List Byte} {s : State} {c : Nat} {e : DecodeReject}
    (hz : readChannel s.chInW z = .ok c) (h : readDecBytes bs = .error e) :
    runBoth bit z bs s = .refused (refusalOf e) := by
  simp [runBoth, hz, h]

/-- Everything the presentation of both datapaths at once can do (R58). -/
theorem runBoth_cases (bit : BitVec 1) (z : Int) (bs : List Byte) (s : State) :
    (∃ c b, readChannel s.chInW z = .ok c ∧ readDecBytes bs = .ok b ∧
      runBoth bit z bs s = .next (((s.presentBoth bit c b).recordEncode (encodeOp bit c)).recordDecode (decodeOp b))) ∨
    (∃ e, runBoth bit z bs s = .refused (refusalOf e)) := by
  unfold runBoth
  cases h1 : readChannel s.chInW z with
  | error e => exact .inr ⟨e, rfl⟩
  | ok c =>
    cases h2 : readDecBytes bs with
    | error e => exact .inr ⟨e, rfl⟩
    | ok b => exact .inl ⟨c, b, rfl, rfl, rfl⟩

/-- A step with nothing to present changes nothing. -/
theorem step_of_nil {s : State} (h : s.program = []) : step s = .next s := by
  simp [step, h]

/-- A step runs the next line, at the state in which it has been taken off the program. -/
theorem step_of_cons {s : State} {f : HarnessForm} {rest : List HarnessForm} (h : s.program = f :: rest) :
    step s = runForm f (s.withProgram rest) := by
  simp [step, h]

/-- EVERYTHING A LINE THAT GOES ON CAN DO. -/
theorem runForm_next_cases {f : HarnessForm} {s t : State} (h : runForm f s = .next t) :
    (∃ bit c, f = .request (.enc bit (Int.ofNat c)) ∧ c < 2 ^ s.chInW ∧
      t = (s.presentEncode bit c).recordEncode (encodeOp bit c)) ∨
    (∃ b, f = .request (.dec (listOfBytes b)) ∧ t = (s.presentDecode b).recordDecode (decodeOp b)) ∨
    (f = .xfer ∧ s.cmd = none ∧ t = s) ∨
    (∃ out, f = .xfer ∧ s.cmd = some out ∧
      t = (s.afterExchange s.answers.tail).withResponse (exchange s out).1) ∨
    (∃ b, f = .decodeResponse ∧ s.rsp = some (.bytes b) ∧ t = (s.presentDecode b).recordDecode (decodeOp b)) ∨
    (f = .decodeResponse ∧ (∀ b, s.rsp ≠ some (.bytes b)) ∧ t = s) ∨
    (∃ bit z, f = .read bit z ∧ t = s.withProgram (readExpansion bit z ++ s.program)) ∨
    (∃ bit c b, f = .both bit (Int.ofNat c) (listOfBytes b) ∧ c < 2 ^ s.chInW ∧
      t = ((s.presentBoth bit c b).recordEncode (encodeOp bit c)).recordDecode (decodeOp b)) := by
  cases f with
  | request r =>
    change runRequest r s = .next t at h
    cases hd : decodeRequest s.chInW r with
    | error e => rw [runRequest_of_error hd] at h; cases h
    | ok i =>
      rw [runRequest_of_ok hd] at h
      rcases decodeRequest_ok_cases hd with ⟨bit, c, rfl, hc, rfl⟩ | ⟨b, rfl, rfl⟩
      · rw [exec_encode, modeBit_modeOfBit] at h
        cases h
        exact .inl ⟨bit, c, rfl, hc, rfl⟩
      · rw [exec_decode] at h
        cases h
        exact .inr (.inl ⟨b, rfl, rfl⟩)
  | xfer =>
    have ht : t = runXfer s := by cases h; rfl
    rcases runXfer_cases s with ⟨ho, hx⟩ | ⟨out, ho, hx⟩
    · exact .inr (.inr (.inl ⟨rfl, ho, ht.trans hx⟩))
    · exact .inr (.inr (.inr (.inl ⟨out, rfl, ho, ht.trans hx⟩)))
  | decodeResponse =>
    change runDecodeResponse s = .next t at h
    rcases runDecodeResponse_cases s with ⟨b, hb, hx⟩ | ⟨hb, hx⟩
    · rw [hx, exec_decode] at h
      cases h
      exact .inr (.inr (.inr (.inr (.inl ⟨b, rfl, hb, rfl⟩))))
    · rw [hx] at h
      cases h
      exact .inr (.inr (.inr (.inr (.inr (.inl ⟨rfl, hb, rfl⟩)))))
  | read bit z =>
    cases h
    exact .inr (.inr (.inr (.inr (.inr (.inr (.inl ⟨bit, z, rfl, rfl⟩))))))
  | both bit z bs =>
    change runBoth bit z bs s = .next t at h
    rcases runBoth_cases bit z bs s with ⟨c, b, hc, hb, hx⟩ | ⟨e, hx⟩
    · rw [hx] at h
      cases h
      obtain ⟨rfl, hlt⟩ := (readChannel_eq_ok_iff _ _ _).1 hc
      rcases readDecBytes_cases bs with ⟨b', rfl, hb'⟩ | ⟨_, hb'⟩
      · rw [hb'] at hb
        cases hb
        exact .inr (.inr (.inr (.inr (.inr (.inr (.inr ⟨bit, c, b, rfl, hlt, rfl⟩))))))
      · rw [hb'] at hb
        cases hb
    · rw [hx] at h
      cases h

/-- EVERYTHING A STEP THAT GOES ON CAN DO: nothing, or run the caller's next line. -/
theorem step_next_cases {s t : State} (h : step s = .next t) :
    (s.program = [] ∧ t = s) ∨
    (∃ f rest, s.program = f :: rest ∧ runForm f (s.withProgram rest) = .next t) := by
  cases hp : s.program with
  | nil =>
    rw [step_of_nil hp] at h
    cases h
    exact .inl ⟨rfl, rfl⟩
  | cons f rest =>
    rw [step_of_cons hp] at h
    exact .inr ⟨f, rest, rfl, h⟩

/-! ### One step per form, in the named updates -/

variable {s : State} {rest : List HarnessForm}

/-- A step that presents a number fitting the port to the encoder (00_scope.md R11, 40_command_encoder.md R59). -/
theorem step_encode {bit : BitVec 1} {c : Nat} (hp : s.program = .request (.enc bit (Int.ofNat c)) :: rest)
    (hc : c < 2 ^ s.chInW) :
    step s = .next (((s.withProgram rest).presentEncode bit c).recordEncode (encodeOp bit c)) := by
  have hd : decodeRequest (s.withProgram rest).chInW (.enc bit (Int.ofNat c)) = .ok (.encode (modeOfBit bit) c) := by
    simp only [decodeRequest, withProgram_chInW, (readChannel_eq_ok_iff s.chInW (Int.ofNat c) c).2 ⟨rfl, hc⟩]
  have hr := runRequest_of_ok hd
  rw [exec_encode, modeBit_modeOfBit] at hr
  rw [step_of_cons hp]
  exact hr

/-- A step that presents four bytes to the decoder (41_response_validator.md R67). -/
theorem step_decode {b : Bytes4} (hp : s.program = .request (.dec (listOfBytes b)) :: rest) :
    step s = .next (((s.withProgram rest).presentDecode b).recordDecode (decodeOp b)) := by
  rw [step_of_cons hp]
  rfl

theorem step_xfer_of_none (hp : s.program = .xfer :: rest) (hc : s.cmd = none) :
    step s = .next (s.withProgram rest) := by
  have hx : runXfer (s.withProgram rest) = s.withProgram rest := by simp [runXfer, hc]
  rw [step_of_cons hp, ← hx]
  exact congrArg _ hx

theorem step_xfer_of_some {out : Bytes4} (hp : s.program = .xfer :: rest) (hc : s.cmd = some out) :
    step s = .next (((s.withProgram rest).afterExchange s.answers.tail).withResponse
      (exchange (s.withProgram rest) out).1) := by
  have hx : runXfer (s.withProgram rest) = ((s.withProgram rest).afterExchange s.answers.tail).withResponse
      (exchange (s.withProgram rest) out).1 := by simp [runXfer, hc, exchange_snd]
  rw [step_of_cons hp, ← hx]
  rfl

theorem step_decodeResponse_of_bytes {b : Bytes4} (hp : s.program = .decodeResponse :: rest)
    (hr : s.rsp = some (.bytes b)) :
    step s = .next (((s.withProgram rest).presentDecode b).recordDecode (decodeOp b)) := by
  have hx : runDecodeResponse (s.withProgram rest) = exec (.decode b) (s.withProgram rest) := by
    simp [runDecodeResponse, hr]
  rw [step_of_cons hp, ← exec_decode, ← hx]
  rfl

theorem step_decodeResponse_of_no_bytes (hp : s.program = .decodeResponse :: rest)
    (hr : ∀ b, s.rsp ≠ some (.bytes b)) : step s = .next (s.withProgram rest) := by
  rw [step_of_cons hp]
  rcases runDecodeResponse_cases (s.withProgram rest) with ⟨b, hb, _⟩ | ⟨_, hx⟩
  · exact absurd hb (hr b)
  · exact hx

theorem step_read {bit : BitVec 1} {z : Int} (hp : s.program = .read bit z :: rest) :
    step s = .next (s.withProgram (readExpansion bit z ++ rest)) := by
  rw [step_of_cons hp]
  rfl

/-! ### Runs -/

theorem run_zero (s : State) : run 0 s = .next s := rfl

/-- A run goes on from the state its first step leaves. -/
theorem run_succ_of_next {k : Nat} {s t : State} (h : step s = .next t) : run (k + 1) s = run k t := by
  have h' : Sys2Proof.core.step s = .next t := h
  unfold run
  simp only [Host.Core.run, h']
  rfl

end Sys2Proof.Machine
end

