-- ==== Sys2Proof/Machine/RequestText.lean ====
section
/-! DEFINITION. Machine/RequestText.lean: the spec's own written form of requests and harness programs
(30_encoding.md R57, 92_eei_decisions.md D14), read into HarnessForm. It defines no behaviour; a line that is none of the
forms reads as none. -/

namespace Sys2Proof.Machine

open Sys2Proof

/-- The value of a decimal digit character. -/
def decDigit (c : Char) : Option Nat :=
  if '0'.toNat ≤ c.toNat ∧ c.toNat ≤ '9'.toNat then some (c.toNat - '0'.toNat) else none

/-- The value of a hexadecimal digit character, of either case. -/
def hexDigit (c : Char) : Option Nat :=
  if 'A'.toNat ≤ c.toNat ∧ c.toNat ≤ 'F'.toNat then some (c.toNat - 'A'.toNat + 10)
  else if 'a'.toNat ≤ c.toNat ∧ c.toNat ≤ 'f'.toNat then some (c.toNat - 'a'.toNat + 10)
  else decDigit c

/-- Digits of a base, most significant first, onto the value read so far. -/
def readDigits (base : Nat) (digit : Char → Option Nat) : List Char → Nat → Option Nat
  | [], acc => some acc
  | c :: cs, acc => (digit c).bind fun d => readDigits base digit cs (base * acc + d)

/-- "unsigned decimal or 0x literal" (R57). -/
def readUnsigned : List Char → Option Nat
  | [] => none
  | '0' :: 'x' :: c :: cs => readDigits 16 hexDigit (c :: cs) 0
  | c :: cs => readDigits 10 decDigit (c :: cs) 0

/-- A byte literal in hex: two digits (R57). -/
def readByte : List Char → Option Byte
  | [c, d] => (readDigits 16 hexDigit [c, d] 0).map (BitVec.ofNat 8)
  | _ => none

/-- A frame literal `0x<hhhhhhhh>`: eight hex digits (R13, R57). -/
def readFrame : List Char → Option Frame
  | '0' :: 'x' :: cs => if cs.length = 8 then (readDigits 16 hexDigit cs 0).map (BitVec.ofNat 32) else none
  | _ => none

/-- `SE` writes mode bit 1 and `PD` writes mode bit 0 (R57). -/
def readMode (t : List Char) : Option (BitVec 1) :=
  if t = ['S', 'E'] then some 1#1 else if t = ['P', 'D'] then some 0#1 else none

/-- Every token of a list of byte literals. -/
def readBytes : List (List Char) → Option (List Byte)
  | [] => some []
  | t :: ts => (readByte t).bind fun b => (readBytes ts).map fun bs => b :: bs

/-- The tokens of a line: blanks separate them, and a comma is a token of its own. `cur` holds the token being read,
last character first. -/
def tokensFrom : List Char → List Char → List (List Char)
  | [], cur => if cur = [] then [] else [cur.reverse]
  | c :: cs, cur =>
    if c = ' ' then (if cur = [] then tokensFrom cs [] else cur.reverse :: tokensFrom cs [])
    else if c = ',' then
      (if cur = [] then [','] :: tokensFrom cs [] else cur.reverse :: [','] :: tokensFrom cs [])
    else tokensFrom cs (c :: cur)

/-- `<mode>, <channel>`. -/
def readModeChannel : List (List Char) → Option (BitVec 1 × Int)
  | [m, [','], c] => (readMode m).bind fun bit => (readUnsigned c).map fun n => (bit, Int.ofNat n)
  | _ => none

/-- The operands of DECODE: none, one frame literal ("same request written as a 32-bit frame; bytes per" R32), or byte
literals. A number of byte literals other than four is read as it stands and refused at the boundary (R36). -/
def readDecodeOperands : List (List Char) → Option HarnessForm
  | [] => some .decodeResponse
  | [t] => match readFrame t with
    | some F => some (.request (.dec (listOfBytes (bytesOfFrame F))))
    | none => (readBytes [t]).map fun bs => .request (.dec bs)
  | ts => (readBytes ts).map fun bs => .request (.dec bs)

/-- One line of the request syntax (R57). -/
def readLine (line : List Char) : Option HarnessForm :=
  match tokensFrom line [] with
  | [] => none
  | op :: args =>
    if op = ['E', 'N', 'C', 'O', 'D', 'E'] then
      (readModeChannel args).map fun mc => .request (.enc mc.1 mc.2)
    else if op = ['D', 'E', 'C', 'O', 'D', 'E'] then readDecodeOperands args
    else if op = ['R', 'E', 'A', 'D'] then
      (readModeChannel args).map fun mc => .read mc.1 mc.2
    else if op = ['X', 'F', 'E', 'R'] ∧ args = [] then some .xfer
    else none

/-- A whole program, one form a line. -/
def readProgram : List (List Char) → Option (List HarnessForm)
  | [] => some []
  | l :: ls => (readLine l).bind fun f => (readProgram ls).map fun fs => f :: fs

end Sys2Proof.Machine
end

