-- ==== Sys2Proof/Tests/Slice0.lean ====
section
/-! SUPPORT. Tests/Slice0.lean: the model's own tests. Expected results come from spec/95_test_vectors.md (W, VE, VD, VF,
VX, VB and the programs) and from the rules named; the witness_ theorems show that the hypotheses of the statements of
Certificates/Slice0/Obligations.lean are met. -/

namespace Sys2Proof.Tests

open Sys2Proof Sys2Proof.Machine

/-! ### Helpers -/

/-- The harness cell `res` after an outcome. -/
def resAfter : Host.Outcome State Fault Refusal → Option OpResult
  | .next t => t.res
  | .fault _ => none
  | .refused _ => none

/-- The harness cell `cmd` after an outcome. -/
def cmdAfter : Host.Outcome State Fault Refusal → Option Bytes4
  | .next t => t.cmd
  | .fault _ => none
  | .refused _ => none

/-- The refusal of an outcome. -/
def refusalAfter : Host.Outcome State Fault Refusal → Option Refusal
  | .next _ => none
  | .fault _ => none
  | .refused r => some r

/-- A small state: reset with one line to run. -/
def presenting (f : HarnessForm) : State := State.reset.withProgram [f]

def bytes (b0 b1 b2 b3 : Byte) : Bytes4 := { b0 := b0, b1 := b1, b2 := b2, b3 := b3 }

/-! ### WellFormed and the boundary: the ill-formed is refused (R11, R36, D5, D15) -/

theorem test_wf_refuses_channel_wider_than_port : (Instr.encode .singleEnded 256).wf 8 = false := by decide
theorem test_wf_accepts_widest_channel : (Instr.encode .singleEnded 255).wf 8 = true := by decide
theorem test_step_refuses_negative_channel :
    refusalAfter (step (presenting (.request (.enc 1#1 (-1))))) = some .channelNegative := by decide
theorem test_step_refuses_channel_wider_than_port :
    refusalAfter (step (presenting (.request (.enc 1#1 256)))) = some .channelTooWide := by decide
theorem test_step_refuses_three_bytes :
    refusalAfter (step (presenting (.request (.dec [0#8, 0#8, 0#8])))) = some .wrongLength := by decide
theorem test_step_refuses_word_of_no_row :
    refusalAfter (step (State.reset.withFetchWord 32 0x84000000)) = some .noDatapath := by decide

/-- R56: always 32 bits, so a table word of fewer bits, or of more, is no frame. -/
theorem test_word_of_another_length_is_refused :
    decodeTableWord 8 0 = none ∧ decodeTableWord 40 0 = none ∧
    refusalAfter (step (State.reset.withFetchWord 8 0)) = some .noDatapath ∧
    refusalAfter (step (State.reset.withFetchWord 24 0xC00000)) = some .noDatapath := by decide
/-- Both at once: the channel's refusal is named when both misfit (log entry 6), else the length's. -/
theorem test_both_at_once_refuses_what_misfits :
    refusalAfter (step (presenting (.both 1#1 256 [0#8]))) = some .channelTooWide ∧
    refusalAfter (step (presenting (.both 1#1 255 [0#8]))) = some .wrongLength := by decide

/-! ### Decoding: frames written out bit by bit from R47 and R48 -/

theorem test_decode_command_word_pd_5 :
    decodeTableWord 32 0b10101000000000000000000000000000 = some (.encode .pseudoDifferential 5) := by decide
theorem test_decode_response_word_sample_0x555 :
    decodeTableWord 32 0b00000000101010101010101010101000 = some (.decode (bytes 0x00 0xAA 0xAA 0xA8)) := by decide
theorem test_table_rows_are_the_specs :
    encodeRow = { mnemonic := "ENCODE", mask := 0x87FFFFFF#32, value := 0x80000000#32 } ∧
    decodeRow = { mnemonic := "DECODE", mask := 0xFE000003#32, value := 0x00000000#32 } := by decide

/-! ### ENCODE: W1 from a placed word, and VE22 (no truncation to 3 bits) -/

theorem test_encode_se_0_runs_from_reset :
    resAfter (step (State.reset.withFetchWord 32 0xC0000000)) = some (.encoded (.ok 0xC0000000#32)) ∧
    cmdAfter (step (State.reset.withFetchWord 32 0xC0000000)) = some (bytes 0xC0 0x00 0x00 0x00) := by decide
theorem test_encode_se_128_is_out_of_range :
    resAfter (step (presenting (.request (.enc 1#1 128)))) = some (.encoded (.err (.channelOutOfRange 128))) ∧
    cmdAfter (step (presenting (.request (.enc 1#1 128)))) = none := by decide

/-! ### DECODE: W3 from a placed word, and VX8 (step 1 before step 2) -/

theorem test_decode_4095_runs_from_reset :
    resAfter (step (State.reset.withFetchWord 32 0x01FFFFFC)) = some (.decoded (.ok 4095#12)) := by decide
theorem test_decode_both_checks_broken_is_malformed :
    resAfter (step (presenting (.request (.dec [0x80#8, 0x00#8, 0x10#8, 0x00#8])))) =
      some (.decoded (.err (.malformedResponse 0x80001000#32))) := by decide

/-! ### Vectors of the pure functions -/

/-- VD1 to VD12: s, RespFrame(s), rev_32 of it. -/
theorem test_valid_frames :
    ([(0x000#12, 0x00000000#32, 0x00000000#32), (0x001#12, 0x00002000#32, 0x00040000#32),
      (0x002#12, 0x00005000#32, 0x000A0000#32), (0x003#12, 0x00007000#32, 0x000E0000#32),
      (0x7FF#12, 0x00FFFFF8#32, 0x1FFFFF00#32), (0x800#12, 0x01000004#32, 0x20000080#32)] ++
     [(0x555#12, 0x00AAAAA8#32, 0x15555500#32), (0xAAA#12, 0x01555554#32, 0x2AAAAA80#32),
      (0xFFE#12, 0x01FFDFFC#32, 0x3FFBFF80#32), (0xFFF#12, 0x01FFFFFC#32, 0x3FFFFF80#32),
      (0x3E8#12, 0x007D05F0#32, 0x0FA0BE00#32), (0x123#12, 0x00247120#32, 0x048E2400#32)]).all
      (fun v => respFrame v.1 == v.2.1 && rev v.2.1 == v.2.2 && align v.2.2 == v.2.1 &&
        decide (decodeFrame v.2.1 = .ok v.1)) = true := by decide

/-- A frame written as bytes most significant first: VB3. -/
theorem test_byte_order : bytesOfFrame 0x12345678#32 = bytes 0x12 0x34 0x56 0x78 := by decide

/-- VF8 (a sample bit), VF20 (a checksum bit), VF31 (padding) and VF19 (the mirror centre) on RespFrame(0x555). -/
theorem test_single_bit_corruptions :
    decodeFrame 0x01AAAAA8#32 = .err (.checksumMismatch 0x01AAAAA8#32) ∧
    decodeFrame 0x00AABAA8#32 = .err (.checksumMismatch 0x00AABAA8#32) ∧
    decodeFrame 0x00AAAAAA#32 = .err (.malformedResponse 0x00AAAAAA#32) ∧
    decodeFrame 0x00AA8AA8#32 = .ok 1364#12 := by decide

/-! ### The harness: P3 step 2 (no exchange) and P5 step 3 (IoFailure), and the written forms -/

theorem test_xfer_without_command_does_nothing :
    step (presenting .xfer) = .next State.reset := by rfl
theorem test_decode_after_io_failure_does_nothing :
    resAfter (step { presenting .decodeResponse with rsp := some .ioFailure, res := some (.encoded (.ok 0x80000000#32)) }) =
      some (.encoded (.ok 0x80000000#32)) := by decide

/-- The lines of P2 and of R57, read from their written form. -/
theorem test_written_lines :
    readProgram ["ENCODE PD, 5".toList, "XFER".toList, "DECODE".toList, "DECODE 00 AA AA A8".toList] =
      some [.request (.enc 0#1 5), .xfer, .decodeResponse, .request (.dec [0x00#8, 0xAA#8, 0xAA#8, 0xA8#8])] ∧
    readLine "DECODE 0x007D05F0".toList = some (.request (.dec [0x00#8, 0x7D#8, 0x05#8, 0xF0#8])) ∧
    readLine "READ SE, 0x10".toList = some (.read 1#1 16) ∧ readLine "ENCODE XX, 1".toList = none := by decide

/-! ### Witnesses: the hypotheses of every statement that has some are met -/

theorem witness_PresentedRequestsReadBack :
    (Instr.encode .singleEnded 7).wf 3 = true ∧ (Instr.decode (bytes 0 0 0 0)).wf 3 = true ∧
    decodeRequest 3 (.enc 1#1 7) = .ok (.encode .singleEnded 7) ∧
    decodeRequest 3 (.dec [1#8, 2#8, 3#8, 4#8]) = .ok (.decode (bytes 1 2 3 4)) := by decide
theorem witness_StepRunsThePresentedRequest :
    (presenting (.request (.enc 0#1 255))).program = .request (.enc 0#1 255) :: [] ∧
    decodeRequest (presenting (.request (.enc 0#1 255))).chInW (.enc 0#1 255) = .ok (.encode .pseudoDifferential 255) := by
  decide
theorem witness_PlacedTableFrameRuns :
    3 ≤ State.reset.chInW ∧ tableWord (.encode .singleEnded 7) = some 0xF8000000#32 ∧
    tableWord (.decode (bytes 0x01 0xFF 0xFF 0xFC)) = some 0x01FFFFFC#32 := by decide
/-- Every clause at its boundary: -1, 0, 255 and 256 for the channel, 3, 4 and 5 bytes, a table word of no row, and both
requests at once. -/
theorem witness_BoundaryRefusesWhatPortsCannotCarry :
    (presenting (.request (.enc 1#1 (-1)))).program = [.request (.enc 1#1 (-1))] ∧ (-1 : Int) < 0 ∧
    (presenting (.request (.enc 1#1 256))).program = [.request (.enc 1#1 256)] ∧
    (2 : Int) ^ (presenting (.request (.enc 1#1 256))).chInW ≤ 256 ∧
    (presenting (.request (.enc 1#1 255))).program = [.request (.enc 1#1 255)] ∧
    (255 : Int) < (2 : Int) ^ (presenting (.request (.enc 1#1 255))).chInW ∧
    (presenting (.request (.dec [0#8, 0#8, 0#8]))).program = [.request (.dec [0#8, 0#8, 0#8])] ∧
    [0#8, 0#8, 0#8].length ≠ 4 ∧ [0#8, 0#8, 0#8, 0#8, 0#8].length ≠ 4 ∧ [0#8, 0#8, 0#8, 0#8].length = 4 ∧
    (presenting (.request (.noDatapath 8 0))).program = [.request (.noDatapath 8 0)] ∧
    (presenting (.both 1#1 (-1) [])).program = [.both 1#1 (-1) []] ∧
    (presenting (.both 1#1 256 [])).program = [.both 1#1 256 []] ∧
    (presenting (.both 1#1 255 [0#8, 0#8, 0#8])).program = [.both 1#1 255 [0#8, 0#8, 0#8]] ∧
    (presenting (.both 1#1 0 [0#8, 0#8, 0#8, 0#8])).program = [.both 1#1 0 [0#8, 0#8, 0#8, 0#8]] := by decide
/-- For EncodeBuildsTheCommandFrame, OperationsNextState, EncoderTruthTable, EncoderLaws, ModeAffectsBitThirtyOnly,
ChannelBitsStandAtTwentySeven and ZeroCheckReadsTheMandatoryZeroBits: both sides of the limit, and a frame ENCODE
produces. -/
theorem witness_encoder_statements :
    (7 : Nat) ≤ 7 ∧ (7 : Nat) < 8 ∧ encodeOp (modeBit .singleEnded) 7 = .ok 0xF8000000#32 ∧
    encodeOp (modeBit .pseudoDifferential) 7 = .ok 0xB8000000#32 ∧
    encodeOp (modeBit .singleEnded) 0 = .ok 0xC0000000#32 ∧
    encodeOp (modeBit .pseudoDifferential) 0 = .ok 0x80000000#32 ∧ encodeOp 1#1 8 = .err (.channelOutOfRange 8) := by decide
theorem witness_CommandFramesAreOnePerModeAndChannel : 0xF8000000#32 &&& 0x87FFFFFF#32 = 0x80000000#32 := by decide
/-- For ChecksumCheckBitByBit, DecodeValidatesAndExtracts, ResponseFramesByClass and StructuralErrorComesFirst: a frame
of each class. -/
theorem witness_decoder_statements :
    0x00AAAAA8#32 &&& 0xFE000003#32 = 0#32 ∧ rev 0x00AAAAA8#32 >>> 5 = 0x00AAAAA8#32 ∧
    BitVec.extractLsb' 2 11 0x00AAAAA8#32 = rev (BitVec.extractLsb' 14 11 0x00AAAAA8#32) ∧
    decodeFrame 0x00AAAAA8#32 = .ok 0x555#12 ∧
    0x00001000#32 &&& 0xFE000003#32 = 0#32 ∧ rev 0x00001000#32 >>> 5 ≠ 0x00001000#32 ∧
    BitVec.extractLsb' 2 11 0x00001000#32 ≠ rev (BitVec.extractLsb' 14 11 0x00001000#32) ∧
    0x80001000#32 &&& 0xFE000003#32 ≠ 0#32 ∧ rev 0x80001000#32 >>> 5 ≠ 0x80001000#32 := by decide
/-- Each clause's range at its ends, and a change of each general clause: bit 13 alone, and a mirror pair. -/
theorem witness_SingleBitFlipsOfAValidFrame :
    ((0 : Nat) < 32 ∧ (0 : Nat) ≤ 1) ∧ ((31 : Nat) < 32 ∧ 25 ≤ (31 : Nat)) ∧ (2 ≤ (12 : Nat) ∧ (12 : Nat) ≤ 12) ∧
    (14 ≤ (14 : Nat) ∧ (24 : Nat) ≤ 24) ∧
    (∀ i, i < 32 → i ≠ 13 → (0x00002000#32).getLsbD i = false) ∧ 0x01000004#32 &&& 0xFE000003#32 = 0#32 ∧
    (∀ k, k < 12 → (0x01000004#32).getLsbD (13 - k) = (0x01000004#32).getLsbD (13 + k)) := by decide
theorem witness_ExtractSampleTakesTheSampleField :
    12 ≤ 16 ∧ ∀ i, i < 25 → 13 ≤ i → (0x00AAAAA8#32).getLsbD i = (0xFEAAA000#32).getLsbD i := by decide
theorem witness_AcceptedFramesMirrorAboutBitThirteen :
    decodeFrame 0x01FFDFFC#32 = .ok 0xFFE#12 ∧ 0x01FFDFFC#32 &&& 0xFE000003#32 = 0#32 ∧
    (∀ k, k ≤ 11 → 1 ≤ k → (0x01FFDFFC#32).getLsbD (13 - k) = (0x01FFDFFC#32).getLsbD (13 + k)) := by decide
/-- For ChannelOutOfRangeRecord, DecodeErrorRecords, ResultCodesNameTheResult and PortsOutsideTheResultCarryNothing:
states with each result on the ports. -/
theorem witness_port_statements :
    ({ State.reset with encChannel := 8 }).encErr = 1#1 ∧ State.reset.encErr = 0#1 ∧ State.reset.decStatus = 0#2 ∧
    ({ State.reset with decBytes := bytes 0xFF 0xFF 0xFF 0xFF }).decStatus = 1#2 ∧
    ({ State.reset with decBytes := bytes 0x00 0x00 0x10 0x00 }).decStatus = 2#2 := by decide

theorem witness_ErrorValueFitsItsPort :
    ∃ (s : State) (v : Nat), s.Inv ∧ s.encErrValue = some v :=
  ⟨{ State.reset with encChannel := 255 }, 255,
    { width := by decide, channelFits := by decide
      cmdIsCurrent := by intro b h; cases h
      encodedIsCurrent := by intro r h; cases h
      decodedIsCurrent := by intro r h; cases h }, by decide⟩
theorem witness_BothAtOnceGiveBothResults :
    (presenting (.both 1#1 255 (listOfBytes (bytes 0 0 0 0)))).program = [.both 1#1 (Int.ofNat 255) [0#8, 0#8, 0#8, 0#8]] ∧
    255 < 2 ^ (presenting .xfer).chInW := by decide
/-- The three clauses: no command; a command and a scripted answer; a command and none scripted. -/
theorem witness_XferExchangesOnlyACommand :
    (∃ s : State, s.program = [.xfer] ∧ s.cmd = none) ∧
    (∃ s : State, s.program = [.xfer] ∧ s.cmd = some (bytes 0xC0 0 0 0) ∧ s.answers = [.ioFailure]) ∧
    (∃ s : State, s.program = [.xfer] ∧ s.cmd = some (bytes 0xC0 0 0 0) ∧ s.answers = []) :=
  ⟨⟨presenting .xfer, by decide⟩,
    ⟨{ presenting .xfer with cmd := some (bytes 0xC0 0 0 0), answers := [.ioFailure] }, by decide⟩,
    ⟨{ presenting .xfer with cmd := some (bytes 0xC0 0 0 0) }, by decide⟩⟩
theorem witness_DecodeWithoutOperandsReadsTheResponse :
    (presenting .decodeResponse).program = [.decodeResponse] ∧ (presenting .decodeResponse).rsp = none ∧
    ({ presenting .decodeResponse with rsp := some .ioFailure }).rsp = some .ioFailure ∧
    ({ presenting .decodeResponse with rsp := some (.bytes (bytes 0 0 0 0)) }).rsp = some (.bytes (bytes 0 0 0 0)) := by decide
/-- For ReadRunsAWholeTransaction (an answer scripted, and none), ReadReturnsTheDevicesSample and
OutOfRangeReadMakesNoExchange. -/
theorem witness_read_statements :
    (presenting (.read (modeBit .singleEnded) 7)).program = [.read (modeBit .singleEnded) (Int.ofNat 7)] ∧
    (7 : Nat) ≤ 7 ∧ 3 ≤ (presenting .xfer).chInW ∧ (presenting (.read (modeBit .singleEnded) 7)).answers = [] ∧
    ({ presenting .xfer with answers := [.bytes (bytes 0x01 0xFF 0xFF 0xFC)] }).answers =
      [.bytes (bytesOfFrame (respFrame 0xFFF#12))] ∧
    (presenting (.read 1#1 8)).program = [.read 1#1 (Int.ofNat 8)] ∧ (7 : Nat) < 8 ∧ 8 < 2 ^ (presenting .xfer).chInW := by decide
theorem witness_IdleStepHoldsEverything : State.reset.program = [] := by decide
/-- For StepKeepsTheParameter and StepKeepsTheInvariant: a state that meets the invariant and whose step goes on. -/
theorem witness_StepKeepsTheInvariant : ∃ s t : State, s.Inv ∧ s.program ≠ [] ∧ step s = .next t :=
  ⟨presenting .xfer, State.reset,
    { width := by decide, channelFits := by decide
      cmdIsCurrent := by intro b h; cases h
      encodedIsCurrent := by intro r h; cases h
      decodedIsCurrent := by intro r h; cases h }, by decide, rfl⟩

end Sys2Proof.Tests
end

section
/-! The scope family (00_scope.md), part 1: a request and its table frame, and what a step does with what is presented at
the boundary. -/

namespace Sys2Proof.Machine

open Sys2Proof

/-! ### Bytes of a frame and fields of a command frame (20_memory.md R33, 30_encoding.md R46) -/

/-- The frame of a frame's bytes is that frame (R33). -/
@[simp] theorem frameOfBytes_bytesOfFrame (F : Frame) : frameOfBytes (bytesOfFrame F) = F := by
  simp only [frameOfBytes, bytesOfFrame, BitVec.extractLsb'_append_extractLsb'_eq_extractLsb',
    BitVec.extractLsb'_eq_self]

/-- The bytes of the frame of four bytes are those bytes (R33). -/
@[simp] theorem bytesOfFrame_frameOfBytes (b : Bytes4) : bytesOfFrame (frameOfBytes b) = b := by
  obtain ⟨b0, b1, b2, b3⟩ := b
  rw [bytesOfFrame, Bytes4.mk.injEq]
  refine ⟨?_, ?_, ?_, ?_⟩ <;> refine BitVec.eq_of_getLsbD_eq fun i hi => ?_
  all_goals
    simp (disch := omega) only [BitVec.getLsbD_extractLsb', frameOfBytes_getLsbD, hi, decide_true, Bool.true_and,
      Nat.zero_add, Nat.add_sub_cancel_left, if_true, if_pos, if_neg]

/-- Every command frame fits ENCODE's row (30_encoding.md R47). -/
theorem encodeRow_fits_commandFrame (bit : BitVec 1) (c : Nat) : encodeRow.fits (commandFrame bit c) = true := by
  rw [commandFrame_eq]
  generalize BitVec.ofNat 3 c = x
  revert bit x
  decide

/-- The mode bit of a command frame is the one it was built from (R49). -/
theorem modeField_commandFrame (bit : BitVec 1) (c : Nat) : modeField (commandFrame bit c) = bit := by
  rw [commandFrame_eq]
  generalize BitVec.ofNat 3 c = x
  revert bit x
  decide

/-- The channel field of a command frame holds the low three bits of the channel (R50). -/
theorem chanField_commandFrame (bit : BitVec 1) (c : Nat) : chanField (commandFrame bit c) = BitVec.ofNat 3 c := by
  rw [commandFrame_eq]
  generalize BitVec.ofNat 3 c = x
  revert bit x
  decide

/-! ### Requests that have a table frame (R47, R48) -/

/-- Everything a request that has a table frame can be. -/
theorem tableWord_some_cases {i : Instr} {F : Frame} (h : tableWord i = some F) :
    (∃ m c, i = .encode m c ∧ c ≤ 7 ∧ F = commandFrame (modeBit m) c) ∨
    (∃ b, i = .decode b ∧ decodeRow.fits F = true ∧ F = frameOfBytes b) := by
  cases i with
  | encode m c =>
    obtain ⟨hc, hF⟩ := Option.ite_none_right_eq_some.1 h
    exact .inl ⟨m, c, rfl, (legalChannel_eq_true_iff c).1 hc, (Option.some.inj hF).symm⟩
  | decode b =>
    obtain ⟨hb, hF⟩ := Option.ite_none_right_eq_some.1 h
    cases hF
    exact .inr ⟨b, rfl, hb, rfl⟩

/-- The table frame of a request is read back as that request. -/
theorem decodeTableWord_of_tableWord {i : Instr} {F : Frame} (h : tableWord i = some F) :
    decodeTableWord 32 F.toNat = some i := by
  rw [decodeTableWord_frame, decodeFrameBytes, frameOfBytes_bytesOfFrame]
  rcases tableWord_some_cases h with ⟨m, c, rfl, hc, rfl⟩ | ⟨b, rfl, hfit, rfl⟩
  · have hchan : c % 2 ^ 3 = c := Nat.mod_eq_of_lt (by omega)
    simp only [encodeRow_fits_commandFrame, if_true, modeField_commandFrame, modeOfBit_modeBit,
      chanField_commandFrame, BitVec.toNat_ofNat, hchan]
  · have hno : ¬ encodeRow.fits (frameOfBytes b) = true := fun he => tableRows_disjoint _ ⟨he, hfit⟩
    simp only [hno, hfit, if_true, bytesOfFrame_frameOfBytes]
    rfl

/-- A request that has a table frame fits every port of at least three bits (00_scope.md R11). -/
theorem wf_of_tableWord {i : Instr} {F : Frame} {w : Nat} (hw : 3 ≤ w) (h : tableWord i = some F) : i.wf w = true := by
  rcases tableWord_some_cases h with ⟨m, c, rfl, hc, rfl⟩ | ⟨b, rfl, -, rfl⟩
  · have hpow : 2 ^ 3 ≤ 2 ^ w := Nat.pow_le_pow_right (by omega) hw
    exact (wf_encode_iff w m c).2 (by omega)
  · rfl

/-- The boundary reads back every request that fits the ports (R26, R28, R58). -/
theorem decodeRequest_encodeRequest {w : Nat} {i : Instr} (h : i.wf w = true) :
    decodeRequest w (encodeRequest i) = .ok i := by
  cases i with
  | encode m c =>
    have hr : readChannel w (.ofNat c) = .ok c := (readChannel_eq_ok_iff w _ c).2 ⟨rfl, (wf_encode_iff w m c).1 h⟩
    simp only [encodeRequest, decodeRequest, hr, modeOfBit_modeBit]
  | decode b => rfl

/-! ### What the boundary refuses and accepts (00_scope.md R11, 20_memory.md R36) -/

theorem readChannel_of_neg {z : Int} (w : Nat) (h : z < 0) : readChannel w z = .error .channelNegative := by
  cases z with
  | ofNat n => exact absurd h (Int.not_lt.2 (Int.natCast_nonneg n))
  | negSucc n => rfl

theorem readChannel_of_pow_le {z : Int} {w : Nat} (h : (2 : Int) ^ w ≤ z) :
    readChannel w z = .error .channelTooWide := by
  have h0 : 0 ≤ z := le_trans (by positivity) h
  obtain ⟨n, rfl⟩ := Int.eq_ofNat_of_zero_le h0
  have hn : 2 ^ w ≤ n := by exact_mod_cast h
  exact if_neg (Nat.not_lt.2 hn)

theorem readChannel_of_lt_pow {z : Int} {w : Nat} (h0 : 0 ≤ z) (h : z < (2 : Int) ^ w) :
    ∃ c, readChannel w z = .ok c := by
  obtain ⟨n, rfl⟩ := Int.eq_ofNat_of_zero_le h0
  have hn : n < 2 ^ w := by exact_mod_cast h
  exact ⟨n, if_pos hn⟩

theorem readDecBytes_of_length_ne {bs : List Byte} (h : bs.length ≠ 4) : readDecBytes bs = .error .wrongLength := by
  rcases readDecBytes_cases bs with ⟨b, rfl, -⟩ | ⟨-, hr⟩
  · exact absurd rfl h
  · exact hr

theorem readDecBytes_of_length_eq {bs : List Byte} (h : bs.length = 4) : ∃ b, readDecBytes bs = .ok b := by
  rcases readDecBytes_cases bs with ⟨b, -, hr⟩ | ⟨hne, -⟩
  · exact ⟨b, hr⟩
  · exact absurd h hne

/-! ### A step that presents something (10_state.md R21) -/

variable {s : State} {rest : List HarnessForm}

/-- A step whose line presents a request runs it, at the state in which the line has been taken off. -/
theorem step_request_of_ok {r : RawRequest} {i : Instr} (hp : s.program = .request r :: rest)
    (hd : decodeRequest s.chInW r = .ok i) : step s = exec i (s.withProgram rest) :=
  (step_of_cons hp).trans (runRequest_of_ok hd)

/-- A step whose line presents no request is refused by the boundary's name for it. -/
theorem step_request_of_error {r : RawRequest} {e : DecodeReject} (hp : s.program = .request r :: rest)
    (hd : decodeRequest s.chInW r = .error e) : step s = .refused (refusalOf e) :=
  (step_of_cons hp).trans (runRequest_of_error hd)

theorem step_request_completes {r : RawRequest} {i : Instr} (hp : s.program = .request r :: rest)
    (hd : decodeRequest s.chInW r = .ok i) : ∃ t, step s = .next t := by
  rw [step_request_of_ok hp hd]
  exact exec_completes i _

variable {bit : BitVec 1} {z : Int} {bs : List Byte}

theorem step_enc_of_error {e : DecodeReject} (hp : s.program = .request (.enc bit z) :: rest)
    (hz : readChannel s.chInW z = .error e) : step s = .refused (refusalOf e) :=
  step_request_of_error hp (by simp only [decodeRequest, hz])

theorem step_enc_completes {c : Nat} (hp : s.program = .request (.enc bit z) :: rest)
    (hz : readChannel s.chInW z = .ok c) : ∃ t, step s = .next t :=
  step_request_completes (i := .encode (modeOfBit bit) c) hp (by simp only [decodeRequest, hz])

theorem step_dec_of_error {e : DecodeReject} (hp : s.program = .request (.dec bs) :: rest)
    (hb : readDecBytes bs = .error e) : step s = .refused (refusalOf e) :=
  step_request_of_error hp (by simp only [decodeRequest, hb])

theorem step_dec_completes {b : Bytes4} (hp : s.program = .request (.dec bs) :: rest)
    (hb : readDecBytes bs = .ok b) : ∃ t, step s = .next t :=
  step_request_completes (i := .decode b) hp (by simp only [decodeRequest, hb])

theorem step_both_of_channel_error {e : DecodeReject} (hp : s.program = .both bit z bs :: rest)
    (hz : readChannel s.chInW z = .error e) : step s = .refused (refusalOf e) :=
  (step_of_cons hp).trans (runBoth_of_channel_error hz)

theorem step_both_of_bytes_error {c : Nat} {e : DecodeReject} (hp : s.program = .both bit z bs :: rest)
    (hz : readChannel s.chInW z = .ok c) (hb : readDecBytes bs = .error e) : step s = .refused (refusalOf e) :=
  (step_of_cons hp).trans (runBoth_of_bytes_error hz hb)

theorem step_both_completes {c : Nat} {b : Bytes4} (hp : s.program = .both bit z bs :: rest)
    (hz : readChannel s.chInW z = .ok c) (hb : readDecBytes bs = .ok b) : ∃ t, step s = .next t := by
  rw [step_of_cons hp]
  simp only [runForm, runBoth, withProgram_chInW, hz, hb]
  exact ⟨_, rfl⟩

/-! ### The obligations on the boundary -/

/-- Settles O5: the boundary reads the placed table frame back as the request, which fits any port of three bits. -/
theorem placedTableFrameRuns : Obligations.PlacedTableFrameRuns := by
  intro s i F hw hF
  have hread : requestOfTableWord 32 F.toNat = encodeRequest i := by
    simp only [requestOfTableWord, decodeTableWord_of_tableWord hF]
  have hp : (s.withFetchWord 32 F.toNat).program = .request (encodeRequest i) :: s.program := by
    simp only [State.withFetchWord, withProgram_program, hread]
  exact step_request_of_ok hp (decodeRequest_encodeRequest (wf_of_tableWord hw hF))

/-- Settles O6, line by line: each clause is the boundary's reading of the channel integer or of the byte sequence. -/
theorem boundaryRefusesWhatPortsCannotCarry : Obligations.BoundaryRefusesWhatPortsCannotCarry := by
  refine ⟨?enc, ?dec, ?noDatapath, ?both⟩
  case enc =>
    intro s bit z rest hp
    refine ⟨fun h => step_enc_of_error hp (readChannel_of_neg _ h),
      fun h => step_enc_of_error hp (readChannel_of_pow_le h), fun h0 h => ?_⟩
    obtain ⟨c, hc⟩ := readChannel_of_lt_pow h0 h
    exact step_enc_completes hp hc
  case dec =>
    intro s bs rest hp
    refine ⟨fun h => step_dec_of_error hp (readDecBytes_of_length_ne h), fun h => ?_⟩
    obtain ⟨b, hb⟩ := readDecBytes_of_length_eq h
    exact step_dec_completes hp hb
  case noDatapath =>
    intro s nbits word rest hp
    exact step_request_of_error hp rfl
  case both =>
    intro s bit z bs rest hp
    refine ⟨fun h => step_both_of_channel_error hp (readChannel_of_neg _ h),
      fun h => step_both_of_channel_error hp (readChannel_of_pow_le h), fun h0 h hlen => ?_, fun h0 h hlen => ?_⟩
    · obtain ⟨c, hc⟩ := readChannel_of_lt_pow h0 h
      exact step_both_of_bytes_error hp hc (readDecBytes_of_length_ne hlen)
    · obtain ⟨c, hc⟩ := readChannel_of_lt_pow h0 h
      obtain ⟨b, hb⟩ := readDecBytes_of_length_eq hlen
      exact step_both_completes hp hc hb

end Sys2Proof.Machine
end

section
/-! The scope family (00_scope.md), part 2: the parameter and the invariant along a step, and the derived constants. -/

namespace Sys2Proof.Machine

open Sys2Proof

/-! ### The parameter CH_IN_W (00_scope.md R10, R11) -/

/-- A line that goes on leaves CH_IN_W as it was: every state it can leave is built by updates that do. -/
theorem runForm_keeps_chInW {f : HarnessForm} {s t : State} (h : runForm f s = .next t) : t.chInW = s.chInW := by
  rcases runForm_next_cases h with ⟨bit, c, -, -, rfl⟩ | ⟨b, -, rfl⟩ | ⟨-, -, rfl⟩ | ⟨out, -, -, rfl⟩ |
    ⟨b, -, -, rfl⟩ | ⟨-, -, rfl⟩ | ⟨bit, z, -, rfl⟩ | ⟨bit, c, b, -, -, rfl⟩
  all_goals rfl

/-- Settles O50: neither taking the line off the program nor running it changes CH_IN_W. -/
theorem stepKeepsTheParameter : Obligations.StepKeepsTheParameter := by
  intro s t h
  rcases step_next_cases h with ⟨-, rfl⟩ | ⟨f, rest, -, hf⟩
  · rfl
  · exact (runForm_keeps_chInW hf).trans (withProgram_chInW s rest)

/-! ### The invariant and the named updates -/

variable {s : State}

/-- The cell `cmd` after an ENCODE of the request on the ports is what `enc_bytes` carries (30_encoding.md R57). -/
theorem recordEncode_cmd_eq_encBytes (s : State) : (s.recordEncode s.encResult).cmd = s.encBytes := by
  rw [recordEncode_cmd]
  cases hr : s.encResult with
  | ok F => exact (encBytes_eq_of_encResult_ok s hr).symm
  | err e => exact (encBytes_eq_of_encResult_err s hr).symm

/-- The caller's program is not part of what the invariant speaks of. -/
theorem State.Inv.withProgram (h : s.Inv) (p : List HarnessForm) : (s.withProgram p).Inv :=
  ⟨h.width, h.channelFits, h.cmdIsCurrent, h.encodedIsCurrent, h.decodedIsCurrent⟩

/-- Nor are the transport's side and the cell `rsp`. -/
theorem State.Inv.afterExchange_withResponse (h : s.Inv) (rest : List Answer) (a : Answer) :
    ((s.afterExchange rest).withResponse a).Inv :=
  ⟨h.width, h.channelFits, h.cmdIsCurrent, h.encodedIsCurrent, h.decodedIsCurrent⟩

/-- ENCODE of a number that fits the port makes `cmd` and `res` current again (R57). -/
theorem State.Inv.encode {bit : BitVec 1} {c : Nat} (h : s.Inv) (hc : c < 2 ^ s.chInW) :
    ((s.presentEncode bit c).recordEncode (encodeOp bit c)).Inv where
  width := h.width
  channelFits := hc
  cmdIsCurrent b hb := (recordEncode_cmd_eq_encBytes (s.presentEncode bit c)).symm.trans hb
  encodedIsCurrent r hr := by
    rw [recordEncode_res, Option.some.injEq, OpResult.encoded.injEq] at hr
    exact hr
  decodedIsCurrent r hr := by
    rw [recordEncode_res] at hr
    cases hr

/-- DECODE keeps the encoder's side, and makes `res` the decoder's current result (R57). -/
theorem State.Inv.decode (h : s.Inv) (b : Bytes4) : ((s.presentDecode b).recordDecode (decodeOp b)).Inv where
  width := h.width
  channelFits := h.channelFits
  cmdIsCurrent := h.cmdIsCurrent
  encodedIsCurrent r hr := by
    rw [recordDecode_res] at hr
    cases hr
  decodedIsCurrent r hr := by
    rw [recordDecode_res, Option.some.injEq, OpResult.decoded.injEq] at hr
    exact hr

/-- Both requests at once leave the state that ENCODE and then DECODE leave (R58, 60_exceptions.md R89). -/
theorem presentBoth_record_eq (s : State) (bit : BitVec 1) (c : Nat) (b : Bytes4) :
    ((s.presentBoth bit c b).recordEncode (encodeOp bit c)).recordDecode (decodeOp b) =
      (((s.presentEncode bit c).recordEncode (encodeOp bit c)).presentDecode b).recordDecode (decodeOp b) := rfl

/-! ### The invariant along a step -/

/-- A line that goes on keeps the invariant. -/
theorem runForm_keeps_inv {f : HarnessForm} {t : State} (hinv : s.Inv) (h : runForm f s = .next t) : t.Inv := by
  rcases runForm_next_cases h with ⟨bit, c, -, hc, rfl⟩ | ⟨b, -, rfl⟩ | ⟨-, -, rfl⟩ | ⟨out, -, -, rfl⟩ |
    ⟨b, -, -, rfl⟩ | ⟨-, -, rfl⟩ | ⟨bit, z, -, rfl⟩ | ⟨bit, c, b, -, hc, rfl⟩
  · exact hinv.encode hc
  · exact hinv.decode b
  · exact hinv
  · exact hinv.afterExchange_withResponse _ _
  · exact hinv.decode b
  · exact hinv
  · exact hinv.withProgram _
  · rw [presentBoth_record_eq]
    exact (hinv.encode hc).decode b

/-- Settles O52: a step takes a line off the program, which keeps the invariant, and runs it, which does too. -/
theorem stepKeepsTheInvariant : Obligations.StepKeepsTheInvariant := by
  intro s t hinv h
  rcases step_next_cases h with ⟨-, rfl⟩ | ⟨f, rest, -, hf⟩
  · exact hinv
  · exact runForm_keeps_inv (hinv.withProgram rest) hf

/-- At reset the wires carry channel 0 and every cell is none, so the clauses on the cells have no case. -/
theorem reset_inv : State.reset.Inv where
  width := by decide
  channelFits := by decide
  cmdIsCurrent b hb := by cases hb
  encodedIsCurrent r hr := by cases hr
  decodedIsCurrent r hr := by cases hr

/-- Settles O51, at the reset state as it is defined. -/
theorem resetMeetsTheInvariant : Obligations.ResetMeetsTheInvariant :=
  ⟨reset_inv, rfl, rfl, rfl, rfl⟩

/-! ### The derived constants (00_scope.md R6, R7, R8, R9) -/

/-- Reversal sends bit `i` of a frame to bit 31 - i (R9, R14). -/
theorem rev_getLsbD_mirror (F : Frame) {i : Nat} (hi : i < 32) : (rev F).getLsbD (31 - i) = F.getLsbD i := by
  have hlt : 31 - i < 32 := by omega
  have hback : 32 - 1 - (31 - i) = i := by omega
  simp only [rev_getLsbD, hlt, hback, decide_true, Bool.true_and]

/-- Settles O53: the formulas and values compute; the mirror laws are those of reversal and Align. -/
theorem derivedConstantsHaveTheirValues : Obligations.DerivedConstantsHaveTheirValues := by
  refine ⟨?formulas, ?positions, ?widths, ?masks, ?mirror⟩
  case formulas => decide
  case positions => decide
  case widths => decide
  case masks => decide
  case mirror => exact ⟨rfl, mirrorT_val, fun F _ hi => rev_getLsbD_mirror F hi, fun _ => rfl, align_eq⟩

end Sys2Proof.Machine
end

section
/-! The state family (10_state.md): the boundary's reading of requests, the ports as functions of the results, and what
the two operations change, keep and depend on. -/

namespace Sys2Proof.Machine

open Sys2Proof

/-! ### Requests at the boundary (10_state.md R26, R28; 30_encoding.md R58) -/

/-- What the boundary reads as a request fits the ports, and is the presentation of that request. -/
theorem wf_and_encodeRequest_of_decodeRequest {w : Nat} {r : RawRequest} {i : Instr} (h : decodeRequest w r = .ok i) :
    i.wf w = true ∧ encodeRequest i = r := by
  rcases decodeRequest_ok_cases h with ⟨bit, c, rfl, hc, rfl⟩ | ⟨b, rfl, rfl⟩
  · exact ⟨(wf_encode_iff w _ c).2 hc, by rw [encodeRequest, modeBit_modeOfBit]⟩
  · exact ⟨rfl, rfl⟩

/-- Settles O1: the boundary reads back what fits, and accepts nothing but presentations of what fits. -/
theorem presentedRequestsReadBack : Obligations.PresentedRequestsReadBack :=
  ⟨fun _ _ h => decodeRequest_encodeRequest h, fun _ _ _ h => wf_and_encodeRequest_of_decodeRequest h⟩

/-- Settles O4: taking the line off the program does not change what the boundary reads. -/
theorem stepRunsThePresentedRequest : Obligations.StepRunsThePresentedRequest :=
  fun _ _ _ _ hp hd => step_request_of_ok hp hd

/-! ### The ports carry the current result (R27, R29, R30) -/

theorem encFrame_isSome_iff (s : State) : s.encFrame.isSome ↔ s.encErr = 0#1 := by
  cases h : s.encResult <;> simp [State.encFrame, State.encErr, encErrCode, h]

/-- The bytes are carried exactly when the frame they are the bytes of is. -/
theorem encBytes_isSome_iff (s : State) : s.encBytes.isSome ↔ s.encErr = 0#1 := by
  rw [State.encBytes, Option.isSome_map]
  exact encFrame_isSome_iff s

theorem encErrValue_isSome_iff (s : State) : s.encErrValue.isSome ↔ s.encErr = 1#1 := by
  cases h : s.encResult with
  | ok F => simp [State.encErrValue, State.encErr, encErrCode, h]
  | err e => cases e; simp [State.encErrValue, State.encErr, encErrCode, h]

theorem decSample_isSome_iff (s : State) : s.decSample.isSome ↔ s.decStatus = 0#2 := by
  cases h : s.decResult with
  | ok v => simp [State.decSample, State.decStatus, decStatusCode, h]
  | err e => cases e <;> simp [State.decSample, State.decStatus, decStatusCode, h]

theorem decErrFrame_isSome_iff (s : State) : s.decErrFrame.isSome ↔ s.decStatus ≠ 0#2 := by
  cases h : s.decResult with
  | ok v => simp [State.decErrFrame, State.decStatus, decStatusCode, h]
  | err e => cases e <;> simp [State.decErrFrame, State.decStatus, decStatusCode, h]

/-- Settles O34, port by port. -/
theorem portsOutsideTheResultCarryNothing : Obligations.PortsOutsideTheResultCarryNothing :=
  fun s => ⟨encFrame_isSome_iff s, encBytes_isSome_iff s, encErrValue_isSome_iff s, decSample_isSome_iff s,
    decErrFrame_isSome_iff s⟩

/-- The error value is the channel request itself, and is carried exactly when that is above 7 (R27). -/
theorem encErrValue_eq_some_iff (s : State) (v : Nat) : s.encErrValue = some v ↔ 7 < v ∧ s.encChannel = v := by
  rcases encodeOp_cases s.encMode s.encChannel with ⟨hc, hr⟩ | ⟨hc, hr⟩
  · have hnone : s.encErrValue = none := by simp only [State.encErrValue, State.encResult, hr]
    simp only [hnone, reduceCtorEq, false_iff]
    omega
  · have hsome : s.encErrValue = some s.encChannel := by simp only [State.encErrValue, State.encResult, hr]
    rw [hsome, Option.some.injEq]
    omega

/-- Settles O35: the error value is the channel request, which the invariant bounds. -/
theorem errorValueFitsItsPort : Obligations.ErrorValueFitsItsPort := by
  intro s v hinv hv
  obtain ⟨h7, rfl⟩ := (encErrValue_eq_some_iff s v).1 hv
  exact ⟨h7, hinv.channelFits⟩

/-! ### The ports depend on the results only (R19, R31) -/

theorem encPorts_eq_of_encResult_eq {s t : State} (h : t.encResult = s.encResult) :
    t.encErr = s.encErr ∧ t.encFrame = s.encFrame ∧ t.encBytes = s.encBytes ∧ t.encErrValue = s.encErrValue := by
  simp only [State.encErr, State.encFrame, State.encBytes, State.encErrValue, h, and_self]

theorem decPorts_eq_of_decResult_eq {s t : State} (h : t.decResult = s.decResult) :
    t.decStatus = s.decStatus ∧ t.decSample = s.decSample ∧ t.decErrFrame = s.decErrFrame := by
  simp only [State.decStatus, State.decSample, State.decErrFrame, h, and_self]

/-! ### The two operations (R19, R21, R24) -/

/-- Settles O36: the state each operation leaves, with ENCODE's result on either side of the limit. -/
theorem operationsNextState : Obligations.OperationsNextState := by
  refine ⟨fun m c s hc => ?illegal, fun m c s hc => ?legal, fun b s => exec_decode b s⟩
  case illegal =>
    rw [exec_encode, encodeOp_of_gt hc]
    rfl
  case legal =>
    rw [exec_encode, encodeOp_of_le hc]
    rfl

/-- Settles O37: each operation leaves the other datapath's result, and so its ports, and the environment. -/
theorem operationsKeepTheirFrame : Obligations.OperationsKeepTheirFrame := by
  refine ⟨fun m c s => ⟨_, exec_encode m c s, ?encode⟩, fun b s => ⟨_, exec_decode b s, ?decode⟩⟩
  case encode =>
    have hres := (recordEncode_decResult (s.presentEncode (modeBit m) c) (encodeOp (modeBit m) c)).trans
      (presentEncode_decResult s _ c)
    obtain ⟨hstatus, hsample, hframe⟩ := decPorts_eq_of_decResult_eq hres
    exact ⟨rfl, hres, hstatus, hsample, hframe, rfl, rfl, rfl, rfl, rfl⟩
  case decode =>
    have hres := (recordDecode_encResult (s.presentDecode b) (decodeOp b)).trans (presentDecode_encResult s b)
    obtain ⟨herr, hframe, hbytes, hvalue⟩ := encPorts_eq_of_encResult_eq hres
    exact ⟨rfl, rfl, hres, herr, hframe, hbytes, hvalue, rfl, rfl, rfl, rfl, rfl, rfl⟩

/-- Settles O39: `res`, `cmd` and the result on the ports are functions of the request alone. -/
theorem resultsDoNotDependOnTheState : Obligations.ResultsDoNotDependOnTheState := by
  intro i s s'
  cases i with
  | encode m c =>
    refine ⟨_, _, exec_encode m c s, exec_encode m c s', ?_, fun _ _ _ => ⟨?_, ?_⟩, nofun⟩
    · simp only [recordEncode_res]
    · simp only [recordEncode_encResult, presentEncode_encResult]
    · simp only [recordEncode_cmd]
  | decode b =>
    refine ⟨_, _, exec_decode b s, exec_decode b s', ?_, nofun, fun _ _ => ?_⟩
    · simp only [recordDecode_res]
    · simp only [recordDecode_decResult, presentDecode_decResult]

/-- Settles O47: DECODE's result does not depend on the state it runs in (O39), so not on the command before it. -/
theorem pairingIsNotChecked : Obligations.PairingIsNotChecked := by
  intro m m' c c' b s
  obtain ⟨t, ht⟩ := exec_completes (.encode m c) s
  obtain ⟨t', ht'⟩ := exec_completes (.encode m' c') s
  obtain ⟨u, u', hu, hu', hres, -, hdec⟩ := resultsDoNotDependOnTheState (.decode b) t t'
  exact ⟨t, u, t', u', ht, hu, ht', hu', hres, decPorts_eq_of_decResult_eq (hdec b rfl)⟩

end Sys2Proof.Machine
end

section
/-! The memory family (20_memory.md): byte order, the order and repetition of the two operations, and the transport's
exchange. -/

namespace Sys2Proof.Machine

open Sys2Proof

/-! ### Byte order (20_memory.md R32, R33) -/

/-- Settles O28: each byte is a slice of the frame, so its bits are the frame's from the slice's lowest on. -/
theorem frameSplitsMostSignificantByteFirst : Obligations.FrameSplitsMostSignificantByteFirst := by
  refine ⟨fun F i hi => ?bits, by decide⟩
  case bits =>
    simp only [bytesOfFrame, BitVec.getLsbD_extractLsb', hi, decide_true, Bool.true_and, Nat.zero_add, and_self]

/-- Bit `i` of a byte that was widened to a frame and shifted up by `k`: the byte stands at the bits k to k + 7. -/
theorem shiftedByte_getLsbD (b : Byte) (k : Nat) {i : Nat} (hi : i < 32) :
    (b.setWidth 32 <<< k).getLsbD i = (decide (k ≤ i) && b.getLsbD (i - k)) := by
  by_cases hk : k ≤ i
  · have hnot : ¬ i < k := by omega
    simp [hi, hk, hnot]
  · simp [hk]

/-- The frame of four bytes as the OR of the shifted bytes (R33): at every bit, exactly one byte is in its place. -/
theorem frameOfBytes_eq_or (b : Bytes4) :
    frameOfBytes b =
      (b.b0.setWidth 32 <<< 24) ||| (b.b1.setWidth 32 <<< 16) ||| (b.b2.setWidth 32 <<< 8) ||| b.b3.setWidth 32 := by
  refine BitVec.eq_of_getLsbD_eq fun i hi => ?_
  simp only [frameOfBytes_getLsbD, BitVec.getLsbD_or, shiftedByte_getLsbD _ _ hi, BitVec.getLsbD_setWidth, hi,
    decide_true, Bool.true_and]
  rcases (by omega : i < 8 ∨ (8 ≤ i ∧ i < 16) ∨ (16 ≤ i ∧ i < 24) ∨ 24 ≤ i) with h | ⟨h, h'⟩ | ⟨h, h'⟩ | h
  all_goals simp (disch := omega) [BitVec.getLsbD_of_ge, if_pos, if_neg, decide_eq_false, decide_eq_true]

/-- Settles O29: the frame's bits read off the two forms, and the two conversions undo each other. -/
theorem bytesAndFrameAreInverse : Obligations.BytesAndFrameAreInverse :=
  ⟨fun _ => rfl, frameOfBytes_eq_or, fun b => frameOfBytes_getLsbD b 31, frameOfBytes_bytesOfFrame,
    bytesOfFrame_frameOfBytes⟩

/-! ### Operations repeated, and in either order (R38, R40) -/

/-- Settles O38: the state an operation leaves is built from the request, so the same request builds it again. -/
theorem operationsAreIdempotent : Obligations.OperationsAreIdempotent := by
  intro i s
  cases i with
  | encode m c => exact ⟨_, exec_encode m c s, exec_encode m c _⟩
  | decode b => exact ⟨_, exec_decode b s, exec_decode b _⟩

/-- Settles O40: the two operations write different fields, except for `res`, which the later one writes. -/
theorem encodeAndDecodeCommute : Obligations.EncodeAndDecodeCommute := by
  intro m c b s
  refine ⟨_, _, _, _, exec_encode m c s, exec_decode b _, exec_decode b s, exec_encode m c _, rfl, ?_, ?_⟩
  · simp only [recordDecode_res]
  · simp only [recordEncode_res]

/-! ### XFER (R43, 30_encoding.md R57) -/

/-- Settles O42: with no command the step does nothing more; with one it is an exchange, scripted or free. -/
theorem xferExchangesOnlyACommand : Obligations.XferExchangesOnlyACommand := by
  refine ⟨fun s rest hp hc => step_xfer_of_none hp hc, ?scripted, ?free⟩
  case scripted =>
    intro s rest out a more hp hc ha
    rw [step_xfer_of_some hp hc, exchange_fst_of_cons out (s := s.withProgram rest) ha, ha]
    rfl
  case free =>
    intro s rest out hp hc ha
    have htail : s.answers.tail = s.answers := by rw [ha, List.tail_nil]
    rw [step_xfer_of_some hp hc, exchange_fst_of_nil out (s := s.withProgram rest) ha, htail]
    rfl

/-! ### READ (R43, R57) -/

/-- The answer of an exchange depends on the transport's side of the state only. -/
theorem exchange_fst_congr {s t : State} (out : Bytes4) (ha : t.answers = s.answers) (hx : t.exchanges = s.exchanges) :
    (exchange t out).1 = (exchange s out).1 := by
  cases h : s.answers with
  | nil => rw [exchange_fst_of_nil out h, exchange_fst_of_nil out (ha.trans h), hx]
  | cons a more => rw [exchange_fst_of_cons out h, exchange_fst_of_cons out (ha.trans h)]

variable {s : State} {rest : List HarnessForm} {bit : BitVec 1} {c : Nat}

/-- The first two steps of a READ: the line is expanded, and its ENCODE runs. -/
theorem run_read_encode (k : Nat) (hp : s.program = .read bit (Int.ofNat c) :: rest) (hc : c < 2 ^ s.chInW) :
    run (k + 2) s = run k (((s.withProgram (.xfer :: .decodeResponse :: rest)).presentEncode bit c).recordEncode
      (encodeOp bit c)) :=
  (run_succ_of_next (step_read hp)).trans (run_succ_of_next (step_encode (s := s.withProgram _) rfl hc))

/-- The state a READ of a legal channel has reached when its command has been exchanged: `out` are the bytes sent. -/
def State.afterReadExchange (s : State) (rest : List HarnessForm) (bit : BitVec 1) (c : Nat) (out : Bytes4) : State :=
  ((((s.withProgram (.decodeResponse :: rest)).presentEncode bit c).recordEncode (encodeOp bit c)).afterExchange
    s.answers.tail).withResponse (exchange s out).1

/-- The exchange leaves the command frame's bytes in `cmd` (R57). -/
theorem afterReadExchange_cmd (s : State) (rest : List HarnessForm) (out : Bytes4) {F : Frame}
    (hF : encodeOp bit c = .ok F) : (s.afterReadExchange rest bit c out).cmd = some (bytesOfFrame F) := by
  simp only [State.afterReadExchange, withResponse_cmd, afterExchange_cmd, recordEncode_cmd, hF]

/-- Until the answer is decoded, `res` is the result of the ENCODE. -/
theorem afterReadExchange_res (s : State) (rest : List HarnessForm) (out : Bytes4) :
    (s.afterReadExchange rest bit c out).res = some (.encoded (encodeOp bit c)) := by
  simp only [State.afterReadExchange, withResponse_res, afterExchange_res, recordEncode_res]

theorem afterReadExchange_rsp (s : State) (rest : List HarnessForm) (out : Bytes4) :
    (s.afterReadExchange rest bit c out).rsp = some (exchange s out).1 := rfl

/-- The first three steps of a READ of a legal channel: its XFER sends the bytes its ENCODE left in `cmd`. -/
theorem run_read_exchange (k : Nat) (hp : s.program = .read bit (Int.ofNat c) :: rest) (hc : c < 2 ^ s.chInW)
    {F : Frame} (hF : encodeOp bit c = .ok F) :
    run (k + 3) s = run k (s.afterReadExchange rest bit c (bytesOfFrame F)) := by
  rw [run_read_encode (k + 1) hp hc]
  refine run_succ_of_next ((step_xfer_of_some (out := bytesOfFrame F) rfl ?_).trans ?_)
  · rw [recordEncode_cmd, hF]
  · rw [exchange_fst_congr (s := s)]
    all_goals rfl

/-- A run of one step ends where the step does. -/
theorem run_one_of_next {s t : State} (h : step s = .next t) : run 1 s = .next t :=
  run_succ_of_next h

/-- READ of a legal channel, run to its end: what its DECODE without operands leaves after the exchange. -/
theorem run_read_cases (hp : s.program = .read bit (Int.ofNat c) :: rest) (hc : c < 2 ^ s.chInW)
    {F : Frame} (hF : encodeOp bit c = .ok F) :
    (∃ b, (exchange s (bytesOfFrame F)).1 = .bytes b ∧
      run 4 s = .next ((((s.afterReadExchange rest bit c (bytesOfFrame F)).withProgram rest).presentDecode b).recordDecode
        (decodeOp b))) ∨
    ((exchange s (bytesOfFrame F)).1 = .ioFailure ∧
      run 4 s = .next ((s.afterReadExchange rest bit c (bytesOfFrame F)).withProgram rest)) := by
  rw [run_read_exchange 1 hp hc hF]
  have hrsp := afterReadExchange_rsp (bit := bit) (c := c) s rest (bytesOfFrame F)
  cases ha : (exchange s (bytesOfFrame F)).1 with
  | bytes b =>
    rw [ha] at hrsp
    exact .inl ⟨b, rfl, run_one_of_next (step_decodeResponse_of_bytes rfl hrsp)⟩
  | ioFailure =>
    have hno : ∀ b, (s.afterReadExchange rest bit c (bytesOfFrame F)).rsp ≠ some (.bytes b) := by simp [hrsp, ha]
    exact .inr ⟨rfl, run_one_of_next (step_decodeResponse_of_no_bytes rfl hno)⟩

end Sys2Proof.Machine
end

section
/-! The memory family (20_memory.md), the whole READ transaction. -/

namespace Sys2Proof.Machine

open Sys2Proof

/-- One of the 8 channels fits every port of at least three bits (00_scope.md R11). -/
theorem legalChannel_fits {c w : Nat} (hc : c ≤ 7) (hw : 3 ≤ w) : c < 2 ^ w :=
  calc c < 2 ^ 3 := by omega
    _ ≤ 2 ^ w := Nat.pow_le_pow_right (by omega) hw

/-- Settles O44: the answer is the exchange's, and DECODE without operands does what its kind says. -/
theorem readRunsAWholeTransaction : Obligations.ReadRunsAWholeTransaction := by
  intro m c s rest hc hw hp
  obtain ⟨F, hF⟩ : ∃ F, encodeOp (modeBit m) c = .ok F := ⟨_, encodeOp_of_le hc⟩
  have hcmd := afterReadExchange_cmd s rest (bytesOfFrame F) hF
  have hscripted : ∀ (first : Answer) (more : List Answer), s.answers = first :: more →
      (exchange s (bytesOfFrame F)).1 = first ∧ s.answers.tail = more :=
    fun _ _ h => ⟨exchange_fst_of_cons _ h, by rw [h, List.tail_cons]⟩
  have hfree : s.answers = [] →
      (exchange s (bytesOfFrame F)).1 = Config.exchangeAnswer s.exchanges (bytesOfFrame F) ∧ s.answers.tail = [] :=
    fun h => ⟨exchange_fst_of_nil _ h, by rw [h, List.tail_nil]⟩
  refine ⟨F, (exchange s (bytesOfFrame F)).1, ?_⟩
  rcases run_read_cases hp (legalChannel_fits hc hw) hF with ⟨b, ha, hrun⟩ | ⟨ha, hrun⟩
  · refine ⟨_, hF, hrun, rfl, hcmd, rfl, rfl, hscripted, hfree, fun b' hb => ?_, fun hio => ?_⟩
    · cases ha.symm.trans hb
      exact ⟨rfl, rfl⟩
    · cases ha.symm.trans hio
  · refine ⟨_, hF, hrun, rfl, hcmd, rfl, rfl, hscripted, hfree, fun b' hb => ?_, fun _ => ⟨?_, rfl⟩⟩
    · cases ha.symm.trans hb
    · rw [withProgram_res, afterReadExchange_res, hF]

end Sys2Proof.Machine
end

section
/-! The encoding family (30_encoding.md), part 1: the command frame bit by bit, and the frames of ENCODE's row. -/

namespace Sys2Proof.Machine

open Sys2Proof

/-! ### The command frame bit by bit (30_encoding.md R46, R49, R50) -/

/-- The Start bit at 31, the mode at 30, the channel's low three bits at 29..27, and zeros below. -/
theorem commandFrame_getLsbD (bit : BitVec 1) (c i : Nat) :
    (commandFrame bit c).getLsbD i =
      if i < 27 then false else if i < 30 then c.testBit (i - 27) else if i = 30 then bit.getLsbD 0
      else decide (i = 31) := by
  by_cases h32 : i < 32
  · rw [commandFrame_eq]
    have hchan : ∀ k, k < 3 → (BitVec.ofNat 3 c).getLsbD k = c.testBit k := fun k hk => by
      rw [BitVec.getLsbD_ofNat, decide_eq_true hk, Bool.true_and]
    interval_cases i <;> simp [-BitVec.getLsbD_eq_getElem, hchan]
  · rw [BitVec.getLsbD_of_ge _ _ (by omega)]
    simp (disch := omega) only [if_neg, decide_eq_false]

/-- Bit `i` of the mask of ENCODE's row: set but for the mode and channel bits 30..27 (R47). -/
theorem cmdFixedMask_getLsbD {i : Nat} (hi : i < 32) : cmdFixedMask.getLsbD i = (decide (i < 27) || decide (i = 31)) := by
  revert i
  decide

/-- A frame fits ENCODE's row exactly when its Start bit is set and the bits 26..0 are 0 (R47). -/
theorem and_cmdFixedMask_eq_startMask_iff (F : Frame) :
    F &&& cmdFixedMask = startMask ↔ F.getLsbD 31 = true ∧ ∀ i, i < 27 → F.getLsbD i = false := by
  have hstart : ∀ i, i < 32 → startMask.getLsbD i = decide (i = 31) := by decide
  constructor
  · intro h
    have hbit : ∀ i, i < 32 → (F.getLsbD i && (decide (i < 27) || decide (i = 31))) = decide (i = 31) := fun i hi => by
      rw [← cmdFixedMask_getLsbD hi, ← hstart i hi, ← BitVec.getLsbD_and, h]
    refine ⟨by simpa only [decide_true, Bool.or_true, Bool.and_true] using hbit 31 (by omega), fun i hi => ?_⟩
    have hi31 : i ≠ 31 := by omega
    simpa only [hi, hi31, decide_true, decide_false, Bool.true_or, Bool.and_true] using hbit i (by omega)
  · rintro ⟨h31, hlow⟩
    refine BitVec.eq_of_getLsbD_eq fun i hi => ?_
    rw [BitVec.getLsbD_and, cmdFixedMask_getLsbD hi, hstart i hi]
    rcases (by omega : i < 27 ∨ i = 31 ∨ (27 ≤ i ∧ i ≠ 31)) with h | rfl | ⟨h, h'⟩
    · have hi31 : i ≠ 31 := by omega
      simp [hlow i h, hi31]
    · simp [h31]
    · simp [h', Nat.not_lt.2 h]

/-- A frame that fits ENCODE's row is the command frame of its own mode and channel fields. -/
theorem commandFrame_of_fields {F : Frame} (h : F &&& cmdFixedMask = startMask) :
    commandFrame (modeField F) (chanField F).toNat = F := by
  obtain ⟨h31, hlow⟩ := (and_cmdFixedMask_eq_startMask_iff F).1 h
  refine BitVec.eq_of_getLsbD_eq fun i hi => ?_
  rw [commandFrame_getLsbD]
  split_ifs with h27 h30 hmode
  · exact (hlow i h27).symm
  · rw [BitVec.testBit_toNat, chanField, BitVec.getLsbD_extractLsb', chanLo_val, Nat.add_sub_cancel' (by omega),
      decide_eq_true (by omega), Bool.true_and]
  · subst hmode
    simp [modeField]
  · obtain rfl : i = 31 := by omega
    exact h31.symm

/-- The channel field is one of the 8 channels (R50). -/
theorem chanField_toNat_le (F : Frame) : (chanField F).toNat ≤ 7 := Nat.le_of_lt_succ (chanField F).isLt

theorem encodeRow_fits_iff (F : Frame) : encodeRow.fits F = true ↔ F &&& cmdFixedMask = startMask := beq_iff_eq

/-! ### Table frames (R47, R48, R58) -/

/-- A request read from a frame has that frame as its table frame: each row's reading drops no bit the row leaves
free. -/
theorem tableWord_of_decodeTableWord {i : Instr} {F : Frame} (h : decodeTableWord 32 F.toNat = some i) :
    tableWord i = some F := by
  rw [decodeTableWord_frame, decodeFrameBytes, frameOfBytes_bytesOfFrame] at h
  split_ifs at h with hcmd hresp
  · cases h
    rw [tableWord, if_pos ((legalChannel_eq_true_iff _).2 (chanField_toNat_le F)), modeBit_modeOfBit,
      commandFrame_of_fields ((encodeRow_fits_iff F).1 hcmd)]
  · cases h
    rw [tableWord, frameOfBytes_bytesOfFrame, if_pos hresp]

/-- Settles O2: the table frame is read back as the request, and what is read has the frame as its table frame. -/
theorem tableFramesReadBack : Obligations.TableFramesReadBack :=
  fun _ _ => ⟨decodeTableWord_of_tableWord, tableWord_of_decodeTableWord⟩

/-- Settles O3: the four requests have those table frames; the three frames fit neither row; the words of another
length are no frame. -/
theorem tableFramesFromTheSpecDecode : Obligations.TableFramesFromTheSpecDecode := by
  refine ⟨?pd5, ?se3, ?sample, ?mismatch, ?noStart, ?lowBit, ?padding, decodeTableWord_of_ne _ (by decide),
    decodeTableWord_of_ne _ (by decide), decodeTableWord_of_ne _ (by decide), decodeTableWord_of_ne _ (by decide)⟩
  case pd5 => exact decodeTableWord_of_tableWord (F := 0xA8000000#32) (by decide)
  case se3 => exact decodeTableWord_of_tableWord (F := 0xD8000000#32) (by decide)
  case sample => exact decodeTableWord_of_tableWord (F := 0x00AAAAA8#32) (by decide)
  case mismatch => exact decodeTableWord_of_tableWord (F := 0x00001000#32) (by decide)
  case noStart => decide
  case lowBit => decide
  case padding => decide

/-! ### The frames ENCODE produces (R47, R49, R50) -/

/-- ENCODE gives a frame exactly for one of the 8 channels, and then the command frame (40_command_encoder.md R59). -/
theorem encodeOp_eq_ok_iff (bit : BitVec 1) (c : Nat) (F : Frame) :
    encodeOp bit c = .ok F ↔ c ≤ 7 ∧ commandFrame bit c = F := by
  rcases encodeOp_cases bit c with ⟨hc, hr⟩ | ⟨hc, hr⟩
  · simp only [hr, Result.ok.injEq, hc, true_and]
  · simp only [hr, reduceCtorEq, Nat.not_le.2 hc, false_and]

/-- The frames of ENCODE's row are exactly the command frames of a mode and one of the 8 channels (R47). -/
theorem and_cmdFixedMask_eq_startMask_iff_exists (F : Frame) :
    F &&& cmdFixedMask = startMask ↔ ∃ (m : ConversionMode) (c : Nat), c ≤ 7 ∧ commandFrame (modeBit m) c = F := by
  constructor
  · intro h
    refine ⟨modeOfBit (modeField F), (chanField F).toNat, chanField_toNat_le F, ?_⟩
    rw [modeBit_modeOfBit, commandFrame_of_fields h]
  · rintro ⟨m, c, -, rfl⟩
    exact (encodeRow_fits_iff _).1 (encodeRow_fits_commandFrame _ c)

/-- A command frame determines the mode and the channel it was built from: they are its fields. -/
theorem commandFrame_injective :
    Function.Injective fun p : ConversionMode × Fin 8 => commandFrame (modeBit p.1) p.2.val := by
  rintro ⟨m, c⟩ ⟨m', c'⟩ h
  have hmode := congrArg modeField h
  have hchan := congrArg chanField h
  simp only [modeField_commandFrame, chanField_commandFrame] at hmode hchan
  refine Prod.ext ?_ (Fin.ext ?_)
  · rw [← modeOfBit_modeBit m, hmode, modeOfBit_modeBit]
  · have hc := congrArg BitVec.toNat hchan
    simpa only [BitVec.toNat_ofNat, Nat.mod_eq_of_lt c.isLt, Nat.mod_eq_of_lt c'.isLt] using hc

/-- The modes as the values of the mode bit (10_state.md R26). -/
def modeEquivBit : ConversionMode ≃ BitVec 1 where
  toFun := modeBit
  invFun := modeOfBit
  left_inv := modeOfBit_modeBit
  right_inv := modeBit_modeOfBit

theorem natCard_bitVec (n : Nat) : Nat.card (BitVec n) = 2 ^ n := Nat.card_eq_of_equiv_fin BitVec.equivFin.toEquiv

/-- There are as many frames with a property as there are values from which an injective construction builds them. -/
theorem natCard_frames {α : Type} {P : Frame → Prop} {build : α → Frame} (hinj : Function.Injective build)
    (hP : ∀ F, P F ↔ ∃ a, build a = F) : Nat.card { F : Frame // P F } = Nat.card α :=
  (Nat.card_congr (Equiv.subtypeEquivRight hP)).trans (Nat.card_range_of_injective hinj)

/-- The modes and channels whose command frame a frame is, as pairs (R47). -/
theorem exists_pair_commandFrame_iff (F : Frame) :
    F &&& cmdFixedMask = startMask ↔ ∃ p : ConversionMode × Fin 8, commandFrame (modeBit p.1) p.2.val = F := by
  rw [and_cmdFixedMask_eq_startMask_iff_exists]
  constructor
  · rintro ⟨m, c, hc, hF⟩
    exact ⟨(m, ⟨c, Nat.lt_succ_of_le hc⟩), hF⟩
  · rintro ⟨⟨m, c⟩, hF⟩
    exact ⟨m, c, Nat.le_of_lt_succ c.isLt, hF⟩

/-- Settles O10: the row's frames are the command frames, which determine their mode and channel. -/
theorem commandFramesAreOnePerModeAndChannel : Obligations.CommandFramesAreOnePerModeAndChannel := by
  unfold Obligations.CommandFramesAreOnePerModeAndChannel
  rw [← cmdFixedMask_val, ← startMask_val]
  simp only [encodeOp_eq_ok_iff]
  refine ⟨and_cmdFixedMask_eq_startMask_iff_exists, fun F hF => ?unique, ?count⟩
  case unique =>
    obtain ⟨p, hp⟩ := (exists_pair_commandFrame_iff F).1 hF
    exact ⟨p, ⟨Nat.le_of_lt_succ p.2.isLt, hp⟩, fun q hq => commandFrame_injective (hq.2.trans hp.symm)⟩
  case count =>
    rw [natCard_frames commandFrame_injective exists_pair_commandFrame_iff, Nat.card_prod,
      Nat.card_congr modeEquivBit, natCard_bitVec, Nat.card_fin]
    norm_num

/-- Settles O11: bit by bit the two command frames of a channel agree but at 30. -/
theorem modeAffectsBitThirtyOnly : Obligations.ModeAffectsBitThirtyOnly := by
  refine ⟨fun bit => by rw [placeMode, modePos_val], fun c F G hF hG => ?_⟩
  obtain ⟨-, rfl⟩ := (encodeOp_eq_ok_iff _ _ _).1 hF
  obtain ⟨-, rfl⟩ := (encodeOp_eq_ok_iff _ _ _).1 hG
  refine ⟨by rw [commandFrame_getLsbD]; rfl, by rw [commandFrame_getLsbD]; rfl, ?_⟩
  refine BitVec.eq_of_getLsbD_eq fun i hi => ?_
  have hbit : ∀ i, i < 32 → (0x40000000#32).getLsbD i = decide (i = 30) := by decide
  rw [BitVec.getLsbD_xor, commandFrame_getLsbD, commandFrame_getLsbD, hbit i hi]
  by_cases h30 : i = 30
  · subst h30
    simp [modeBit]
  · simp [h30]

/-- Settles O12: the three bits read off the command frame. -/
theorem channelBitsStandAtTwentySeven : Obligations.ChannelBitsStandAtTwentySeven := by
  refine ⟨fun c => by rw [placeChannel, chanLo_val], fun m c F hF => ?_⟩
  obtain ⟨hc, rfl⟩ := (encodeOp_eq_ok_iff _ _ _).1 hF
  exact ⟨hc, by rw [commandFrame_getLsbD]; rfl, by rw [commandFrame_getLsbD]; rfl, by rw [commandFrame_getLsbD]; rfl⟩

end Sys2Proof.Machine
end

section
/-! The encoding family (30_encoding.md), part 2: response frames, mirrored about bit 13, and how many there are of each
class. -/

namespace Sys2Proof.Machine

open Sys2Proof

/-! ### Frames that are mirrored about bit 13 (30_encoding.md R52) -/

/-- Every bit of the checksum field equals its mirror image about bit 13 (R52). -/
def Mirrored (F : Frame) : Prop := ∀ k, 1 ≤ k → k ≤ 11 → F.getLsbD (13 - k) = F.getLsbD (13 + k)

/-- Once step 1 has passed, step 2 passes exactly the mirrored frames: bits 26, 25, 1 and 0 are 0, so they mirror each
other, and bit 13 mirrors itself (41_response_validator.md R66). -/
theorem alignRev_eq_iff_mirrored {F : Frame} (hz : F &&& mzMask = 0#32) : align (rev F) = F ↔ Mirrored F := by
  have hzero := (and_mzMask_eq_zero_iff F).1 hz
  rw [alignRev_eq_iff]
  constructor
  · intro h k h1 h11
    rw [h (13 - k) (by omega), decide_eq_true (by omega), Bool.true_and]
    congr 1
    omega
  · intro h j hj
    rcases (by omega : (j < 2 ∨ (25 ≤ j ∧ j < 27)) ∨ 27 ≤ j ∨ (2 ≤ j ∧ j < 13) ∨ j = 13 ∨ (13 < j ∧ j < 25)) with
      hm | hm | hm | rfl | hm
    · rw [hzero j hj (by omega), hzero (26 - j) (by omega) (by omega), Bool.and_false]
    · rw [hzero j hj (by omega), decide_eq_false (by omega), Bool.false_and]
    · have hk := h (13 - j) (by omega) (by omega)
      rw [show 13 - (13 - j) = j by omega, show 13 + (13 - j) = 26 - j by omega] at hk
      rw [hk, decide_eq_true (by omega), Bool.true_and]
    · rfl
    · have hk := h (j - 13) (by omega) (by omega)
      rw [show 13 - (j - 13) = 26 - j by omega, show 13 + (j - 13) = j by omega] at hk
      rw [← hk, decide_eq_true (by omega), Bool.true_and]

/-- The checksum field is the reversal of frame bits 24..14 exactly when the frame is mirrored (R52). -/
theorem cksumField_eq_rev_iff_mirrored (F : Frame) : cksumField F = rev (F.extractLsb' 14 11) ↔ Mirrored F := by
  have hbit : ∀ j, j < 11 → (cksumField F).getLsbD j = F.getLsbD (2 + j) ∧
      (rev (F.extractLsb' 14 11)).getLsbD j = F.getLsbD (24 - j) := fun j hj => by
    rw [cksumField_getLsbD, rev_getLsbD, BitVec.getLsbD_extractLsb', decide_eq_true hj,
      decide_eq_true (by omega : 11 - 1 - j < 11), show 14 + (11 - 1 - j) = 24 - j by omega]
    simp only [Bool.true_and, and_self]
  constructor
  · intro h k h1 h11
    obtain ⟨hc, hr⟩ := hbit (11 - k) (by omega)
    rw [h, hr] at hc
    rw [show 13 - k = 2 + (11 - k) by omega, ← hc]
    congr 1
    omega
  · intro h
    refine BitVec.eq_of_getLsbD_eq fun j hj => ?_
    obtain ⟨hc, hr⟩ := hbit j hj
    have hk := h (11 - j) (by omega) (by omega)
    rw [show 13 - (11 - j) = 2 + j by omega, show 13 + (11 - j) = 24 - j by omega] at hk
    rw [hc, hr, hk]

/-- DECODE accepts exactly the mirrored frames with clear mandatory-zero bits, with their sample field (R54). -/
theorem decodeFrame_eq_ok_iff_mirrored (F : Frame) (v : Sample) :
    decodeFrame F = .ok v ↔ (F &&& mzMask = 0#32 ∧ Mirrored F) ∧ sampleField F = v := by
  rcases decodeFrame_cases F with ⟨hz, hr⟩ | ⟨hz, hm, hr⟩ | ⟨hz, hm, hr⟩
  · simp only [hr, reduceCtorEq, hz, false_and]
  · rw [Ne, alignRev_eq_iff_mirrored hz] at hm
    simp only [hr, reduceCtorEq, hm, and_false, false_and]
  · rw [alignRev_eq_iff_mirrored hz] at hm
    simp only [hr, Result.ok.injEq, hz, hm, and_self, true_and]

/-! ### The valid response frames (42_sample_extractor.md R72, R74, R75) -/

theorem respFrame_and_mzMask (s : Sample) : respFrame s &&& mzMask = 0#32 := by
  refine (and_mzMask_eq_zero_iff _).2 fun i _ hi => ?_
  rw [respFrame_getLsbD]
  split_ifs
  · rfl
  · omega
  · exact BitVec.getLsbD_of_ge s _ (by omega)

/-- Sample bit `k` and its copy stand `k` bits above and below bit 13 (30_encoding.md R52). -/
theorem respFrame_getLsbD_about_center (s : Sample) {k : Nat} (h1 : 1 ≤ k) (h11 : k ≤ 11) :
    (respFrame s).getLsbD (13 - k) = s.getLsbD k ∧ (respFrame s).getLsbD (13 + k) = s.getLsbD k := by
  constructor
  · rw [respFrame_getLsbD, if_neg (by omega), if_pos (by omega), show 13 - (13 - k) = k by omega]
  · rw [respFrame_getLsbD, if_neg (by omega), if_neg (by omega), Nat.add_sub_cancel_left]

theorem respFrame_mirrored (s : Sample) : Mirrored (respFrame s) := fun _ h1 h11 => by
  obtain ⟨hcopy, hbit⟩ := respFrame_getLsbD_about_center s h1 h11
  rw [hcopy, hbit]

theorem sampleField_respFrame (s : Sample) : sampleField (respFrame s) = s := by
  refine BitVec.eq_of_getLsbD_eq fun i hi => ?_
  rw [sampleField_getLsbD, decide_eq_true hi, Bool.true_and, respFrame_getLsbD, if_neg (by omega), if_neg (by omega),
    Nat.add_sub_cancel_left]

/-- A mirrored frame with clear mandatory-zero bits is the valid frame of its sample field (R75). -/
theorem respFrame_sampleField {F : Frame} (hz : F &&& mzMask = 0#32) (hm : Mirrored F) :
    respFrame (sampleField F) = F := by
  have hzero := (and_mzMask_eq_zero_iff F).1 hz
  refine BitVec.eq_of_getLsbD_eq fun i hi => ?_
  rw [respFrame_getLsbD]
  split_ifs with h2 h13
  · exact (hzero i hi (.inl h2)).symm
  · have hk := hm (13 - i) (by omega) (by omega)
    rw [sampleField_getLsbD, decide_eq_true (by omega), Bool.true_and, ← hk]
    congr 1
    omega
  · by_cases h25 : i < 25
    · rw [sampleField_getLsbD, decide_eq_true (by omega), Bool.true_and, Nat.add_sub_cancel' (by omega)]
    · rw [hzero i hi (by omega), BitVec.getLsbD_of_ge _ _ (by omega)]

theorem mirrored_iff_exists_respFrame (F : Frame) : F &&& mzMask = 0#32 ∧ Mirrored F ↔ ∃ s, respFrame s = F := by
  constructor
  · rintro ⟨hz, hm⟩
    exact ⟨_, respFrame_sampleField hz hm⟩
  · rintro ⟨s, rfl⟩
    exact ⟨respFrame_and_mzMask s, respFrame_mirrored s⟩

/-- DECODE accepts with sample `v` exactly the valid frame of `v` (R75). -/
theorem decodeFrame_eq_ok_iff (F : Frame) (v : Sample) : decodeFrame F = .ok v ↔ respFrame v = F := by
  rw [decodeFrame_eq_ok_iff_mirrored]
  constructor
  · rintro ⟨⟨hz, hm⟩, rfl⟩
    exact respFrame_sampleField hz hm
  · rintro rfl
    exact ⟨⟨respFrame_and_mzMask v, respFrame_mirrored v⟩, sampleField_respFrame v⟩

theorem respFrame_injective : Function.Injective respFrame := Function.LeftInverse.injective sampleField_respFrame

/-- Decoding the bytes of a sample's valid frame gives the sample back (R74). -/
theorem decodeOp_bytesOfFrame_respFrame (v : Sample) : decodeOp (bytesOfFrame (respFrame v)) = .ok v := by
  rw [decodeOp, frameOfBytes_bytesOfFrame]
  exact (decodeFrame_eq_ok_iff _ v).2 rfl

/-- The bits 24..14 of a valid frame are the sample's bits 11..1, which the checksum field mirrors (R52). -/
theorem cksumField_respFrame (v : Sample) : cksumField (respFrame v) = rev (v.extractLsb' 1 11) := by
  rw [(cksumField_eq_rev_iff_mirrored _).2 (respFrame_mirrored v)]
  congr 1
  refine BitVec.eq_of_getLsbD_eq fun i hi => ?_
  have hbit := (respFrame_getLsbD_about_center v (k := 1 + i) (by omega) (by omega)).2
  rw [BitVec.getLsbD_extractLsb', BitVec.getLsbD_extractLsb', ← hbit, show 14 + i = 13 + (1 + i) by omega]

/-- Bit 13 of a valid frame is sample bit 0, which has no copy: flipping one flips just the other (R52). -/
theorem respFrame_xor_center (v : Sample) : respFrame (v ^^^ 1#12) = respFrame v ^^^ 0x00002000#32 := by
  have hcenter : ∀ i, i < 32 → (0x00002000#32).getLsbD i = decide (i = 13) := by decide
  have hone : ∀ k, (1#12).getLsbD k = decide (k = 0) := fun k => by
    rw [BitVec.getLsbD_one]
    simp
  refine BitVec.eq_of_getLsbD_eq fun i hi => ?_
  rw [BitVec.getLsbD_xor, respFrame_getLsbD, respFrame_getLsbD, hcenter i hi]
  split_ifs with h2 h13
  · rw [decide_eq_false (by omega), Bool.xor_false]
  · rw [BitVec.getLsbD_xor, hone, decide_eq_false (by omega), decide_eq_false (by omega)]
  · rw [BitVec.getLsbD_xor, hone]
    congr 2
    exact propext (by omega)

/-- Settles O26: an accepted frame is the valid frame of its sample, and a mirrored one is accepted. -/
theorem acceptedFramesMirrorAboutBitThirteen : Obligations.AcceptedFramesMirrorAboutBitThirteen := by
  unfold Obligations.AcceptedFramesMirrorAboutBitThirteen
  rw [← mzMask_val]
  refine ⟨fun F v hF => ?accepted, fun F hz hm => ?mirrored⟩
  case accepted =>
    obtain rfl := (decodeFrame_eq_ok_iff F v).1 hF
    exact ⟨fun k h1 h11 => ⟨respFrame_mirrored v k h1 h11, (respFrame_getLsbD_about_center v h1 h11).1⟩,
      cksumField_respFrame v, (decodeFrame_eq_ok_iff _ _).2 (respFrame_xor_center v)⟩
  case mirrored => exact ⟨_, (decodeFrame_eq_ok_iff_mirrored F _).2 ⟨⟨hz, hm⟩, rfl⟩⟩

/-! ### How many frames there are of each class (R54) -/

/-- The frame with clear mandatory-zero bits whose bits 24..2 are `x`. -/
def frameOfFreeBits (x : BitVec 23) : Frame := x.setWidth 32 <<< 2

theorem frameOfFreeBits_getLsbD (x : BitVec 23) {i : Nat} (hi : i < 32) :
    (frameOfFreeBits x).getLsbD i = (decide (2 ≤ i) && x.getLsbD (i - 2)) := by
  have hlt : i - 2 < 32 := by omega
  rw [frameOfFreeBits, BitVec.getLsbD_shiftLeft, BitVec.getLsbD_setWidth, decide_eq_true hi, decide_eq_true hlt,
    Bool.true_and, Bool.true_and, ← decide_not]
  simp only [Nat.not_lt]

theorem frameOfFreeBits_injective : Function.Injective frameOfFreeBits := by
  intro x y h
  refine BitVec.eq_of_getLsbD_eq fun i hi => ?_
  have hbit : ∀ z : BitVec 23, (frameOfFreeBits z).getLsbD (i + 2) = z.getLsbD i := fun z => by
    rw [frameOfFreeBits_getLsbD z (by omega), decide_eq_true (by omega), Bool.true_and, Nat.add_sub_cancel]
  rw [← hbit x, h, hbit y]

theorem and_mzMask_eq_zero_iff_exists (F : Frame) : F &&& mzMask = 0#32 ↔ ∃ x, frameOfFreeBits x = F := by
  rw [and_mzMask_eq_zero_iff]
  constructor
  · intro h
    refine ⟨F.extractLsb' 2 23, BitVec.eq_of_getLsbD_eq fun i hi => ?_⟩
    rw [frameOfFreeBits_getLsbD _ hi, BitVec.getLsbD_extractLsb']
    by_cases hm : i < 2 ∨ 25 ≤ i
    · rw [h i hi hm]
      rcases hm with hm | hm
      · rw [decide_eq_false (by omega), Bool.false_and]
      · rw [decide_eq_false (by omega : ¬ i - 2 < 23), Bool.false_and, Bool.and_false]
    · rw [decide_eq_true (by omega), decide_eq_true (by omega), Nat.add_sub_cancel' (by omega), Bool.true_and,
        Bool.true_and]
  · rintro ⟨x, rfl⟩ i hi hm
    rw [frameOfFreeBits_getLsbD x hi]
    rcases hm with hm | hm
    · rw [decide_eq_false (by omega), Bool.false_and]
    · rw [BitVec.getLsbD_of_ge x _ (by omega), Bool.and_false]

/-- R54: 2^23 frames have clear mandatory-zero bits. -/
theorem natCard_and_mzMask_eq_zero : Nat.card { F : Frame // F &&& mzMask = 0#32 } = 2 ^ 23 :=
  (natCard_frames frameOfFreeBits_injective and_mzMask_eq_zero_iff_exists).trans (natCard_bitVec 23)

/-- R54: 2^12 of them are mirrored, one per sample. -/
theorem natCard_mirrored : Nat.card { F : Frame // F &&& mzMask = 0#32 ∧ Mirrored F } = 2 ^ 12 :=
  (natCard_frames respFrame_injective mirrored_iff_exists_respFrame).trans (natCard_bitVec 12)

/-- The frames with one property split into those that have a second one and those that have it not. -/
theorem natCard_frames_split (P Q : Frame → Prop) :
    Nat.card { F : Frame // P F ∧ Q F } + Nat.card { F : Frame // P F ∧ ¬ Q F } = Nat.card { F : Frame // P F } :=
  Set.ncard_inter_add_ncard_sdiff_eq_ncard { F | P F } { F | Q F }

/-- R54: the frames with a mandatory-zero bit set are all the others of the 2^32. -/
theorem natCard_and_mzMask_ne_zero : Nat.card { F : Frame // F &&& mzMask ≠ 0#32 } = 2 ^ 32 - 2 ^ 23 := by
  have hsplit := natCard_frames_split (fun _ => True) (fun F => F &&& mzMask = 0#32)
  simp only [true_and, natCard_and_mzMask_eq_zero, Nat.card_congr (Equiv.subtypeUnivEquiv fun _ : Frame => trivial),
    natCard_bitVec] at hsplit
  exact Nat.eq_sub_of_add_eq' hsplit

/-- R54: the frames that pass step 1 and fail step 2 are the rest of the 2^23. -/
theorem natCard_not_mirrored : Nat.card { F : Frame // F &&& mzMask = 0#32 ∧ ¬ Mirrored F } = 2 ^ 23 - 2 ^ 12 := by
  have hsplit := natCard_frames_split (fun F => F &&& mzMask = 0#32) Mirrored
  rw [natCard_mirrored, natCard_and_mzMask_eq_zero] at hsplit
  exact Nat.eq_sub_of_add_eq' hsplit

/-- Settles O25: the checksum field agrees exactly in the mirrored frames, so the classes are the three ends of DECODE. -/
theorem responseFramesByClass : Obligations.ResponseFramesByClass := by
  have hcksum : ∀ F : Frame, F.extractLsb' 2 11 = rev (F.extractLsb' 14 11) ↔ Mirrored F :=
    cksumField_eq_rev_iff_mirrored
  unfold Obligations.ResponseFramesByClass
  rw [← mzMask_val]
  simp only [Ne, hcksum]
  refine ⟨fun F hz => ?malformed, fun F hz hm => ?mismatch, fun F hz hm => ?valid, natCard_and_mzMask_ne_zero,
    natCard_not_mirrored, natCard_mirrored⟩
  case malformed =>
    rcases decodeFrame_cases F with ⟨-, hr⟩ | ⟨hz', -⟩ | ⟨hz', -⟩
    · exact hr
    · exact absurd hz' hz
    · exact absurd hz' hz
  case mismatch =>
    rcases decodeFrame_cases F with ⟨hz', -⟩ | ⟨-, -, hr⟩ | ⟨-, hm', -⟩
    · exact absurd hz hz'
    · exact hr
    · exact absurd ((alignRev_eq_iff_mirrored hz).1 hm') hm
  case valid => exact (decodeFrame_eq_ok_iff_mirrored F _).2 ⟨⟨hz, hm⟩, rfl⟩

end Sys2Proof.Machine
end

section
/-! The encoding family (30_encoding.md), part 3: the lines of the harness (R57) and both requests at once (R58). -/

namespace Sys2Proof.Machine

open Sys2Proof

variable {s : State} {rest : List HarnessForm} {bit : BitVec 1} {c : Nat}

/-- A step that presents a number fitting the port and four bytes at once (30_encoding.md R58). -/
theorem step_both {b : Bytes4} (hp : s.program = .both bit (Int.ofNat c) (listOfBytes b) :: rest)
    (hc : c < 2 ^ s.chInW) :
    step s = .next ((((s.withProgram rest).presentBoth bit c b).recordEncode (encodeOp bit c)).recordDecode
      (decodeOp b)) := by
  have hread : readChannel (s.withProgram rest).chInW (Int.ofNat c) = .ok c := (readChannel_eq_ok_iff _ _ c).2 ⟨rfl, hc⟩
  rw [step_of_cons hp]
  simp only [runForm, runBoth, hread, readDecBytes_listOfBytes, presentBoth_encResult, presentBoth_decResult]

/-- An ENCODE and then a DECODE, one step each. -/
theorem run_encode_decode {b : Bytes4}
    (hp : s.program = .request (.enc bit (Int.ofNat c)) :: .request (.dec (listOfBytes b)) :: rest)
    (hc : c < 2 ^ s.chInW) :
    run 2 s = .next (((((s.withProgram rest).presentEncode bit c).recordEncode (encodeOp bit c)).presentDecode
      b).recordDecode (decodeOp b)) :=
  (run_succ_of_next (step_encode hp hc)).trans (run_one_of_next (step_decode rfl))

/-- Settles O41: the one step and the two leave the same state, in which each datapath shows its own request's result. -/
theorem bothAtOnceGiveBothResults : Obligations.BothAtOnceGiveBothResults := by
  intro bit c b s rest hp hc
  refine ⟨_, step_both hp hc, ?_, ?_, ?_⟩
  · rw [recordDecode_encResult, recordEncode_encResult, presentBoth_encResult]
  · rw [recordDecode_decResult, recordEncode_decResult, presentBoth_decResult]
  · rw [presentBoth_record_eq]
    exact run_encode_decode rfl hc

/-- Settles O43, by what `rsp` holds. -/
theorem decodeWithoutOperandsReadsTheResponse : Obligations.DecodeWithoutOperandsReadsTheResponse := by
  intro s rest hp
  refine ⟨fun b hb => step_decodeResponse_of_bytes hp hb, fun hr => ?_, fun hr => ?_⟩
  · exact step_decodeResponse_of_no_bytes hp fun b => by simp [hr]
  · exact step_decodeResponse_of_no_bytes hp fun b => by simp [hr]

/-- Settles O45: the whole READ (O44) decodes the scripted answer, and the decoder gives its sample back (R74). -/
theorem readReturnsTheDevicesSample : Obligations.ReadReturnsTheDevicesSample := by
  intro m c s rest v more hc hw hp ha
  obtain ⟨F, a, t, -, hrun, -, -, -, -, hscripted, -, hbytes, -⟩ := readRunsAWholeTransaction m c s rest hc hw hp
  obtain ⟨ha', -⟩ := hscripted _ more ha
  obtain ⟨hres, hwires⟩ := hbytes _ ha'
  have hdec : t.decResult = .ok v := by rw [State.decResult, hwires, decodeOp_bytesOfFrame_respFrame]
  refine ⟨t, hrun, ?_, ?_, ?_⟩
  · rw [hres, decodeOp_bytesOfFrame_respFrame]
  · simp only [State.decSample, hdec]
  · simp only [State.decStatus, decStatusCode, hdec]

/-- DECODE without operands leaves the encoder's side, the cells `cmd` and `rsp` and the transport's side as they were
(R57, 60_exceptions.md R89, R90). -/
theorem step_decodeResponse_keeps (hp : s.program = .decodeResponse :: rest) :
    ∃ t, step s = .next t ∧ t.cmd = s.cmd ∧ t.rsp = s.rsp ∧ t.answers = s.answers ∧ t.exchanges = s.exchanges ∧
      t.encResult = s.encResult := by
  by_cases hb : ∃ b, s.rsp = some (.bytes b)
  · obtain ⟨b, hb⟩ := hb
    exact ⟨_, step_decodeResponse_of_bytes hp hb, rfl, rfl, rfl, rfl, rfl⟩
  · exact ⟨_, step_decodeResponse_of_no_bytes hp (not_exists.1 hb), rfl, rfl, rfl, rfl, rfl⟩

/-- The first three steps of a READ of an out-of-range channel: its ENCODE clears `cmd`, so its XFER does nothing. -/
theorem run_read_of_gt (k : Nat) (hp : s.program = .read bit (Int.ofNat c) :: rest) (hc : c < 2 ^ s.chInW) (h7 : 7 < c) :
    run (k + 3) s = run k (((s.withProgram (.decodeResponse :: rest)).presentEncode bit c).recordEncode
      (.err (.channelOutOfRange c))) := by
  rw [run_read_encode (k + 1) hp hc, encodeOp_of_gt h7]
  exact run_succ_of_next (step_xfer_of_none rfl rfl)

/-- Settles O46: the encoder's error makes the XFER do nothing, and the DECODE keeps the rest. -/
theorem outOfRangeReadMakesNoExchange : Obligations.OutOfRangeReadMakesNoExchange := by
  intro bit c s rest h7 hc hp
  obtain ⟨t, hstep, hcmd, hrsp, hans, hex, henc⟩ := step_decodeResponse_keeps (rest := rest)
    (s := ((s.withProgram (.decodeResponse :: rest)).presentEncode bit c).recordEncode (.err (.channelOutOfRange c))) rfl
  have herr : t.encResult = .err (.channelOutOfRange c) := by
    rw [henc, recordEncode_encResult, presentEncode_encResult, encodeOp_of_gt h7]
  refine ⟨t, (run_read_of_gt 1 hp hc h7).trans (run_one_of_next hstep), hcmd, hrsp, hans, hex, ?_, ?_⟩
  · simp only [State.encErr, encErrCode, herr]
  · simp only [State.encErrValue, herr]

end Sys2Proof.Machine
end

section
/-! The command encoder family (40_command_encoder.md): the value, the masks and the bytes of a command frame, and what
the encoder's ports carry for each result. -/

namespace Sys2Proof.Machine

open Sys2Proof

/-! ### The encoder's ports for each result (10_state.md R27, R30) -/

theorem encPorts_of_encResult_ok {s : State} {F : Frame} (h : s.encResult = .ok F) :
    s.encErr = 0#1 ∧ s.encFrame = some F ∧ s.encBytes = some (bytesOfFrame F) := by
  refine ⟨?_, ?_, encBytes_eq_of_encResult_ok s h⟩
  · simp only [State.encErr, encErrCode, h]
  · simp only [State.encFrame, h]

theorem encPorts_of_encResult_err {s : State} {c : Nat} (h : s.encResult = .err (.channelOutOfRange c)) :
    s.encErr = 1#1 ∧ s.encErrValue = some c ∧ s.encFrame = none := by
  simp only [State.encErr, encErrCode, State.encErrValue, State.encFrame, h, and_self]

/-- ENCODE completes in every state, and its result then stands on the encoder's ports (R19, R21). -/
theorem exec_encode_encResult (m : ConversionMode) (c : Nat) (s : State) :
    ∃ t, exec (.encode m c) s = .next t ∧ t.encResult = encodeOp (modeBit m) c :=
  ⟨_, exec_encode m c s, by rw [recordEncode_encResult, presentEncode_encResult]⟩

/-! ### The command frame as a number and under masks (40_command_encoder.md R59, R61) -/

/-- The fields weigh in at 2^31, 2^30 and 2^27 and do not overlap. -/
theorem commandFrame_toNat (bit : BitVec 1) (c : Nat) :
    (commandFrame bit c).toNat = 2 ^ 31 + bit.toNat * 2 ^ 30 + c % 2 ^ 3 * 2 ^ 27 := by
  rw [commandFrame_eq, ← BitVec.toNat_ofNat]
  generalize BitVec.ofNat 3 c = x
  revert bit x
  decide

theorem commandFrame_bounds (bit : BitVec 1) (c : Nat) :
    0x80000000 ≤ (commandFrame bit c).toNat ∧ (commandFrame bit c).toNat ≤ 0xF8000000 := by
  have hbit : bit.toNat < 2 := bit.isLt
  rw [commandFrame_toNat]
  omega

theorem commandFrame_ne_zero (bit : BitVec 1) (c : Nat) : commandFrame bit c ≠ 0#32 := fun h => by
  have hlow := (commandFrame_bounds bit c).1
  rw [h] at hlow
  exact absurd hlow (by decide)

/-- The bits 26..0 of a command frame are 0. -/
theorem commandFrame_getLsbD_of_lt (bit : BitVec 1) (c : Nat) {i : Nat} (hi : i < 27) :
    (commandFrame bit c).getLsbD i = false := by
  rw [commandFrame_getLsbD, if_pos hi]

theorem commandFrame_extractLsb'_low (bit : BitVec 1) (c : Nat) : (commandFrame bit c).extractLsb' 0 27 = 0#27 := by
  refine BitVec.eq_of_getLsbD_eq fun i hi => ?_
  rw [BitVec.getLsbD_extractLsb', Nat.zero_add, commandFrame_getLsbD_of_lt bit c hi, Bool.and_false, BitVec.getLsbD_zero]

/-- All of a command frame stands in the bits 31..27. -/
theorem commandFrame_and_top (bit : BitVec 1) (c : Nat) : commandFrame bit c &&& 0xF8000000#32 = commandFrame bit c := by
  have htop : ∀ i, i < 32 → (0xF8000000#32).getLsbD i = decide (27 ≤ i) := by decide
  refine BitVec.eq_of_getLsbD_eq fun i hi => ?_
  rw [BitVec.getLsbD_and, htop i hi]
  by_cases h27 : i < 27
  · rw [commandFrame_getLsbD_of_lt bit c h27, Bool.false_and]
  · rw [decide_eq_true (Nat.not_lt.1 h27), Bool.and_true]

/-- A mask acts on a command frame by its bits 31..27 alone. -/
theorem commandFrame_and (bit : BitVec 1) (c : Nat) (mask : Frame) :
    commandFrame bit c &&& mask = commandFrame bit c &&& (0xF8000000#32 &&& mask) := by
  rw [← BitVec.and_assoc, commandFrame_and_top]

/-- MZ_MASK keeps the bits 31..27, so the whole of a command frame (R61 (d)). -/
theorem commandFrame_and_mzMask (bit : BitVec 1) (c : Nat) : commandFrame bit c &&& mzMask = commandFrame bit c := by
  rw [commandFrame_and, mzMask_val, show 0xF8000000#32 &&& 0xFE000003#32 = 0xF8000000#32 by decide, commandFrame_and_top]

theorem commandFrame_and_low (bit : BitVec 1) (c : Nat) : commandFrame bit c &&& 0x07FFFFFF#32 = 0#32 := by
  rw [commandFrame_and, show 0xF8000000#32 &&& 0x07FFFFFF#32 = 0#32 by decide, BitVec.and_zero]

/-! ### The fields and the bytes of a command frame (R60, R61) -/

theorem startField_commandFrame (bit : BitVec 1) (c : Nat) : startField (commandFrame bit c) = 1#1 := by
  refine BitVec.eq_of_getLsbD_eq fun i hi => ?_
  obtain rfl : i = 0 := by omega
  rw [startField, BitVec.getLsbD_extractLsb', startPos_val, commandFrame_getLsbD]
  rfl

theorem chanField_commandFrame_toNat (bit : BitVec 1) {c : Nat} (hc : c ≤ 7) :
    (chanField (commandFrame bit c)).toNat = c := by
  rw [chanField_commandFrame, BitVec.toNat_ofNat, Nat.mod_eq_of_lt (by omega)]

/-- The first byte holds the Start bit, the mode and the channel; checked on the 16 legal requests (R60). -/
theorem bytesOfFrame_commandFrame (bit : BitVec 1) {c : Nat} (hc : c ≤ 7) :
    bytesOfFrame (commandFrame bit c) =
      { b0 := BitVec.ofNat 8 (0x80 ||| (bit.toNat <<< 6) ||| (c <<< 3)), b1 := 0#8, b2 := 0#8, b3 := 0#8 } := by
  revert bit c
  decide

/-- DECODE of a frame with a mandatory-zero bit set ends in step 1 (41_response_validator.md R67). -/
theorem decodeFrame_of_and_mzMask_ne_zero {F : Frame} (h : F &&& mzMask ≠ 0#32) :
    decodeFrame F = .err (.malformedResponse F) := by
  rcases decodeFrame_cases F with ⟨-, hr⟩ | ⟨hz, -⟩ | ⟨hz, -⟩
  · exact hr
  · exact absurd hz h
  · exact absurd hz h

/-- A command frame looped back to the decoder is malformed (R61 (d)). -/
theorem decodeOp_bytesOfFrame_commandFrame (bit : BitVec 1) (c : Nat) :
    decodeOp (bytesOfFrame (commandFrame bit c)) = .err (.malformedResponse (commandFrame bit c)) := by
  rw [decodeOp, frameOfBytes_bytesOfFrame]
  refine decodeFrame_of_and_mzMask_ne_zero ?_
  rw [commandFrame_and_mzMask]
  exact commandFrame_ne_zero bit c

/-- ENCODE is injective on legal requests (R61 (c)). -/
theorem encodeOp_ok_injective {m m' : ConversionMode} {c c' : Nat} {F : Frame}
    (h : encodeOp (modeBit m) c = .ok F) (h' : encodeOp (modeBit m') c' = .ok F) : m = m' ∧ c = c' := by
  obtain ⟨hc, hF⟩ := (encodeOp_eq_ok_iff _ _ _).1 h
  obtain ⟨hc', hF'⟩ := (encodeOp_eq_ok_iff _ _ _).1 h'
  have hpair := @commandFrame_injective (m, ⟨c, Nat.lt_succ_of_le hc⟩) (m', ⟨c', Nat.lt_succ_of_le hc'⟩)
    (hF.trans hF'.symm)
  simpa only [Prod.mk.injEq, Fin.mk.injEq] using hpair

/-! ### The obligations -/

/-- Settles O7: ENCODE's result on either side of the limit, and the ports that carry it. -/
theorem encodeBuildsTheCommandFrame : Obligations.EncodeBuildsTheCommandFrame := by
  refine ⟨rfl, rfl, fun m c s hc => ?illegal, fun m c s hc => ?legal, by decide, by decide, by decide, by decide⟩
  case illegal =>
    obtain ⟨t, ht, hres⟩ := exec_encode_encResult m c s
    rw [encodeOp_of_gt hc] at hres
    obtain ⟨herr, hvalue, hframe⟩ := encPorts_of_encResult_err hres
    exact ⟨t, ht, hres, herr, hvalue, fun F => by simp only [hframe, ne_eq, reduceCtorEq, not_false_eq_true]⟩
  case legal =>
    obtain ⟨t, ht, hres⟩ := exec_encode_encResult m c s
    rw [encodeOp_of_le hc] at hres
    obtain ⟨herr, hframe, hbytes⟩ := encPorts_of_encResult_ok hres
    exact ⟨_, t, commandFrame_eq _ c, ht, hres, herr, hframe, hbytes, commandFrame_and_low _ c, commandFrame_bounds _ c⟩

/-- Settles O9: each law is read off the command frame's fields, masks and bounds. -/
theorem encoderLaws : Obligations.EncoderLaws := by
  refine ⟨fun m c hc => ?fields, fun _ _ hc => encodeOp_of_gt hc, fun _ _ _ _ _ h h' => encodeOp_ok_injective h h',
    fun m c F hF => ?loopBack⟩
  case fields =>
    exact ⟨_, encodeOp_of_le hc, startField_commandFrame _ c, modeField_commandFrame _ c,
      chanField_commandFrame_toNat _ hc, commandFrame_extractLsb'_low _ c⟩
  case loopBack =>
    obtain ⟨-, rfl⟩ := (encodeOp_eq_ok_iff _ _ _).1 hF
    rw [← mzMask_val, commandFrame_and_mzMask, commandFrame_and_top]
    exact ⟨rfl, commandFrame_ne_zero _ c, decodeOp_bytesOfFrame_commandFrame _ c⟩

/-- Settles O8: the sixteen rows evaluated, and the bytes of any command frame. -/
theorem encoderTruthTable : Obligations.EncoderTruthTable := by
  refine ⟨by decide, fun m c F hF => ?bytes⟩
  case bytes =>
    obtain ⟨hc, rfl⟩ := (encodeOp_eq_ok_iff _ _ _).1 hF
    exact bytesOfFrame_commandFrame _ hc

end Sys2Proof.Machine
end

section
/-! The response validator family (41_response_validator.md): the two checks bit by bit, DECODE's three ends and the ports
that carry them, and what DECODE makes of a valid frame with some of its bits flipped. -/

namespace Sys2Proof.Machine

open Sys2Proof

/-! ### Step 1, the mandatory-zero bits (R62) -/

theorem zeroCheck_eq_malformed_iff (F : Frame) : zeroCheck F = .err (.malformedResponse F) ↔ F &&& mzMask ≠ 0#32 := by
  rw [zeroCheck_eq]
  split_ifs with hz
  · simp only [hz, ne_eq, not_true_eq_false]
  · simp only [ne_eq, hz, not_false_eq_true]

theorem mem_mandatoryZeroBits_iff {i : Nat} :
    i ∈ [31, 30, 29, 28, 27, 26, 25, 1, 0] ↔ i < 32 ∧ (i < 2 ∨ 25 ≤ i) := by
  simp only [List.mem_cons, List.not_mem_nil, or_false]
  omega

theorem and_mzMask_ne_zero_iff (F : Frame) :
    F &&& mzMask ≠ 0#32 ↔ ∃ i ∈ [31, 30, 29, 28, 27, 26, 25, 1, 0], F.getLsbD i = true := by
  simp only [ne_eq, and_mzMask_eq_zero_iff, mem_mandatoryZeroBits_iff, not_forall, exists_prop, Bool.not_eq_false,
    and_assoc]

/-- Every command frame fails step 1: its Start bit is a mandatory-zero bit of a response. -/
theorem zeroCheck_commandFrame (bit : BitVec 1) (c : Nat) :
    zeroCheck (commandFrame bit c) = .err (.malformedResponse (commandFrame bit c)) := by
  rw [zeroCheck_eq_malformed_iff, commandFrame_and_mzMask]
  exact commandFrame_ne_zero bit c

/-! ### Step 2, the mirror image (R64, R66) -/

theorem checksumCheck_eq_ok_iff (F : Frame) : checksumCheck F = .ok () ↔ align (rev F) = F := by
  rw [checksumCheck_eq]
  split_ifs with h <;> simp only [h]

theorem checksumCheck_eq_mismatch_iff (F : Frame) :
    checksumCheck F = .err (.checksumMismatch F) ↔ ¬ align (rev F) = F := by
  rw [checksumCheck_eq]
  split_ifs with h
  · simp only [h, not_true_eq_false]
  · simp only [h, not_false_eq_true]

theorem not_mirrored_iff (F : Frame) : ¬ Mirrored F ↔ ∃ k, 1 ≤ k ∧ k ≤ 11 ∧ F.getLsbD (13 - k) ≠ F.getLsbD (13 + k) := by
  simp only [Mirrored, not_forall, exists_prop, ne_eq]

/-! ### The three ends of DECODE (R67) -/

theorem decodeFrame_of_alignRev_ne {F : Frame} (hz : F &&& mzMask = 0#32) (hm : align (rev F) ≠ F) :
    decodeFrame F = .err (.checksumMismatch F) := by
  rcases decodeFrame_cases F with ⟨hz', -⟩ | ⟨-, -, hr⟩ | ⟨-, hm', -⟩
  · exact absurd hz hz'
  · exact hr
  · exact absurd hm' hm

theorem decodeFrame_of_not_mirrored {F : Frame} (hz : F &&& mzMask = 0#32) (hm : ¬ Mirrored F) :
    decodeFrame F = .err (.checksumMismatch F) :=
  decodeFrame_of_alignRev_ne hz fun h => hm ((alignRev_eq_iff_mirrored hz).1 h)

theorem decodeFrame_of_mirrored {F : Frame} (hz : F &&& mzMask = 0#32) (hm : Mirrored F) :
    decodeFrame F = .ok (sampleField F) :=
  (decodeFrame_eq_ok_iff_mirrored F _).2 ⟨⟨hz, hm⟩, rfl⟩

/-! ### The decoder's ports for each result (10_state.md R28, R29, R30) -/

theorem decResult_eq_decodeFrame (s : State) : s.decResult = decodeFrame s.decFrame := rfl

theorem decPorts_of_decResult_ok {s : State} {v : Sample} (h : s.decResult = .ok v) :
    s.decStatus = 0#2 ∧ s.decSample = some v := by
  simp only [State.decStatus, decStatusCode, State.decSample, h, and_self]

theorem decPorts_of_decResult_malformed {s : State} {F : Frame} (h : s.decResult = .err (.malformedResponse F)) :
    s.decStatus = 1#2 ∧ s.decErrFrame = some F := by
  simp only [State.decStatus, decStatusCode, State.decErrFrame, h, and_self]

theorem decPorts_of_decResult_mismatch {s : State} {F : Frame} (h : s.decResult = .err (.checksumMismatch F)) :
    s.decStatus = 2#2 ∧ s.decErrFrame = some F := by
  simp only [State.decStatus, decStatusCode, State.decErrFrame, h, and_self]

/-- DECODE completes in every state, and the frame of its bytes then stands in the decoder (R28, R67). -/
theorem exec_decode_decFrame (b : Bytes4) (s : State) :
    ∃ t, exec (.decode b) s = .next t ∧ t.decFrame = frameOfBytes b :=
  ⟨_, exec_decode b s, by rw [State.decFrame, recordDecode_decBytes, presentDecode_decBytes]⟩

/-! ### Flipped bits of a valid frame (R68) -/

/-- Flipping bits of a frame that passes step 1 breaks it exactly when a mandatory-zero bit is flipped. -/
theorem respFrame_xor_and_mzMask (s : Sample) (d : Frame) : (respFrame s ^^^ d) &&& mzMask = d &&& mzMask := by
  refine BitVec.eq_of_getLsbD_eq fun i _ => ?_
  rw [BitVec.getLsbD_and, BitVec.getLsbD_xor, Bool.and_xor_distrib_right, ← BitVec.getLsbD_and, ← BitVec.getLsbD_and,
    respFrame_and_mzMask, BitVec.getLsbD_zero, Bool.false_xor]

/-- Flipping bits of a mirrored frame leaves it mirrored exactly when the set of flipped bits is. -/
theorem mirrored_respFrame_xor_iff (s : Sample) (d : Frame) : Mirrored (respFrame s ^^^ d) ↔ Mirrored d := by
  refine forall_congr' fun k => forall_congr' fun h1 => forall_congr' fun h11 => ?_
  rw [BitVec.getLsbD_xor, BitVec.getLsbD_xor, respFrame_mirrored s k h1 h11, Bool.xor_right_inj]

theorem sampleField_respFrame_xor (s : Sample) (d : Frame) : sampleField (respFrame s ^^^ d) = s ^^^ sampleField d := by
  have hxor : sampleField (respFrame s ^^^ d) = sampleField (respFrame s) ^^^ sampleField d := BitVec.extractLsb'_xor
  rw [hxor, sampleField_respFrame]

section FlippedBits

variable (s : Sample) {d : Frame}

theorem decodeFrame_respFrame_xor_of_malformed (hz : d &&& mzMask ≠ 0#32) :
    decodeFrame (respFrame s ^^^ d) = .err (.malformedResponse (respFrame s ^^^ d)) :=
  decodeFrame_of_and_mzMask_ne_zero (by rwa [respFrame_xor_and_mzMask])

theorem decodeFrame_respFrame_xor_of_not_mirrored (hz : d &&& mzMask = 0#32) (hm : ¬ Mirrored d) :
    decodeFrame (respFrame s ^^^ d) = .err (.checksumMismatch (respFrame s ^^^ d)) :=
  decodeFrame_of_not_mirrored (by rwa [respFrame_xor_and_mzMask]) (by rwa [mirrored_respFrame_xor_iff])

theorem decodeFrame_respFrame_xor_of_mirrored (hz : d &&& mzMask = 0#32) (hm : Mirrored d) :
    decodeFrame (respFrame s ^^^ d) = .ok (s ^^^ sampleField d) := by
  rw [decodeFrame_of_mirrored (by rwa [respFrame_xor_and_mzMask]) (by rwa [mirrored_respFrame_xor_iff]),
    sampleField_respFrame_xor]

end FlippedBits

/-- A change confined to bit 13 touches no mandatory-zero bit and no mirrored one. -/
theorem confinedToCenter_mirrored {d : Frame} (h : ∀ i, i ≠ 13 → d.getLsbD i = false) :
    d &&& mzMask = 0#32 ∧ Mirrored d := by
  refine ⟨(and_mzMask_eq_zero_iff d).2 fun i _ hm => h i (by omega), fun k h1 _ => ?_⟩
  rw [h (13 - k) (by omega), h (13 + k) (by omega)]

theorem bitMask_getLsbD {j : Nat} (hj : j < 32) (i : Nat) : (1#32 <<< j).getLsbD i = decide (j = i) := by
  rw [← BitVec.twoPow_eq, BitVec.getLsbD_twoPow, decide_eq_true hj, Bool.true_and]

theorem bitMask_and_mzMask_eq_zero_iff {j : Nat} (hj : j < 32) : 1#32 <<< j &&& mzMask = 0#32 ↔ 2 ≤ j ∧ j ≤ 24 := by
  revert j
  decide

/-- A checksum or sample bit other than bit 13 is not its own mirror image, so a flip of it alone breaks the symmetry;
its distance from bit 13 is `(j - 13) + (13 - j)`. -/
theorem bitMask_not_mirrored {j : Nat} (h2 : 2 ≤ j) (h24 : j ≤ 24) (h13 : j ≠ 13) : ¬ Mirrored (1#32 <<< j) := by
  intro hm
  have hk := hm ((j - 13) + (13 - j)) (by omega) (by omega)
  rw [bitMask_getLsbD (by omega), bitMask_getLsbD (by omega), decide_eq_decide] at hk
  omega

/-- Step 2 detects a flip of one checksum or sample bit other than bit 13 (R68). -/
theorem decodeFrame_respFrame_xor_bitMask_mismatch (s : Sample) {j : Nat} (h2 : 2 ≤ j) (h24 : j ≤ 24) (h13 : j ≠ 13) :
    decodeFrame (respFrame s ^^^ (1#32 <<< j)) = .err (.checksumMismatch (respFrame s ^^^ (1#32 <<< j))) :=
  decodeFrame_respFrame_xor_of_not_mirrored s ((bitMask_and_mzMask_eq_zero_iff (by omega)).2 ⟨h2, h24⟩)
    (bitMask_not_mirrored h2 h24 h13)

/-! ### The obligations -/

/-- Settles O13: a bit of the mask is one of the nine, and a command frame has one of them set. -/
theorem zeroCheckReadsTheMandatoryZeroBits : Obligations.ZeroCheckReadsTheMandatoryZeroBits := by
  unfold Obligations.ZeroCheckReadsTheMandatoryZeroBits
  refine ⟨fun F => ?bits, fun F => ?mask, by decide, by decide, by decide, by decide, by decide, fun m c F hF => ?command⟩
  case bits => rw [zeroCheck_eq_malformed_iff, and_mzMask_ne_zero_iff]
  case mask => rw [zeroCheck_eq, mzMask_val, ite_not]
  case command =>
    obtain ⟨-, rfl⟩ := (encodeOp_eq_ok_iff _ _ _).1 hF
    exact zeroCheck_commandFrame _ c

/-- Settles O16: step 2 passes exactly the mirrored frames, once step 1 has passed. -/
theorem checksumCheckBitByBit : Obligations.ChecksumCheckBitByBit := by
  unfold Obligations.ChecksumCheckBitByBit
  rw [← mzMask_val]
  refine ⟨fun F hz => ⟨?mismatch, ?pass⟩, fun F j => ?realigned⟩
  case mismatch => rw [checksumCheck_eq_mismatch_iff, alignRev_eq_iff_mirrored hz, not_mirrored_iff]
  case pass =>
    rw [checksumCheck_eq_ok_iff, alignRev_eq_iff_mirrored hz]
    exact (cksumField_eq_rev_iff_mirrored F).symm
  case realigned =>
    rw [← align_eq, alignRev_getLsbD]
    constructor <;> intro hj
    · rw [decide_eq_true (by omega), Bool.true_and]
    · rw [decide_eq_false (by omega), Bool.false_and]

/-- Settles O18: the checks in order, on the frame that stands in the decoder, and the ports for each result. -/
theorem decodeValidatesAndExtracts : Obligations.DecodeValidatesAndExtracts := by
  unfold Obligations.DecodeValidatesAndExtracts
  rw [← mzMask_val]
  refine ⟨fun b s => ?exec, by decide, by decide, by decide, by decide, by decide, fun s => ?center,
    fun _ v _ => Nat.le_of_lt_succ v.isLt⟩
  case exec =>
    obtain ⟨t, ht, hF⟩ := exec_decode_decFrame b s
    refine ⟨t, ht, hF, fun hz => ?malformed, fun hz hm => ?mismatch, fun hz hm => ?valid⟩
    case malformed =>
      have hres := decodeFrame_of_and_mzMask_ne_zero hz
      exact ⟨hres, decPorts_of_decResult_malformed hres⟩
    case mismatch =>
      have hres := decodeFrame_of_alignRev_ne hz hm
      exact ⟨hres, decPorts_of_decResult_mismatch hres⟩
    case valid =>
      have hres := decodeFrame_of_mirrored hz ((alignRev_eq_iff_mirrored hz).1 hm)
      exact ⟨hres, decPorts_of_decResult_ok hres⟩
  case center => exact (decodeFrame_eq_ok_iff _ _).2 (respFrame_xor_center s)

/-- Settles O19: whether a changed valid frame passes the checks depends only on which bits were changed. -/
theorem singleBitFlipsOfAValidFrame : Obligations.SingleBitFlipsOfAValidFrame := by
  unfold Obligations.SingleBitFlipsOfAValidFrame
  rw [← mzMask_val]
  refine ⟨fun s j hj => ⟨fun hm => ?mandatoryZero, fun h2 h12 => ?checksum, fun h14 h24 => ?sample, ?center⟩,
    fun s d hd => ?confined, fun s d hz hd => ?symmetric⟩
  case mandatoryZero =>
    refine decodeFrame_respFrame_xor_of_malformed s fun hz => ?_
    have hrange := (bitMask_and_mzMask_eq_zero_iff hj).1 hz
    omega
  case checksum => exact decodeFrame_respFrame_xor_bitMask_mismatch s h2 (by omega) (by omega)
  case sample => exact decodeFrame_respFrame_xor_bitMask_mismatch s (by omega) h24 (by omega)
  case center =>
    rintro rfl
    exact (decodeFrame_eq_ok_iff _ _).2 (respFrame_xor_center s)
  case confined =>
    obtain ⟨hz, hm⟩ := confinedToCenter_mirrored hd
    exact ⟨_, decodeFrame_respFrame_xor_of_mirrored s hz hm⟩
  case symmetric => exact ⟨_, decodeFrame_respFrame_xor_of_mirrored s hz fun k _ h11 => hd k h11⟩

/-- Settles O14: step 2 with Align's shift by 5, and the reversal at width 32. -/
theorem checksumCheckComparesTheMirrorImage : Obligations.ChecksumCheckComparesTheMirrorImage := by
  refine ⟨fun F => ?compare, fun F i hi => ?mirror, by decide, by decide, by decide, by decide, by decide⟩
  case compare => rw [checksumCheck_eq, align_eq, ite_not]
  case mirror => rw [rev_getLsbD, decide_eq_true hi, Bool.true_and]

/-- Settles O15: both cases are Align's definition, and MIRROR_T is negative. -/
theorem alignShiftsRightByFive : Obligations.AlignShiftsRightByFive :=
  ⟨fun _ => rfl, rfl, mirrorT_val, align_eq⟩

/-- Settles O20: the frame of four zero bytes is the valid frame of sample 0. -/
theorem allZeroFrameIsSampleZero : Obligations.AllZeroFrameIsSampleZero := by
  refine ⟨fun s => ?decode, by decide⟩
  case decode =>
    obtain ⟨t, ht, hF⟩ := exec_decode_decFrame { b0 := 0x00#8, b1 := 0x00#8, b2 := 0x00#8, b3 := 0x00#8 } s
    have hres : t.decResult = .ok 0#12 := by
      rw [decResult_eq_decodeFrame, hF, decodeFrame_eq_ok_iff]
      decide
    exact ⟨t, ht, hres, decPorts_of_decResult_ok hres⟩

end Sys2Proof.Machine
end

section
/-! The sample extractor family (42_sample_extractor.md): step 3, and the valid response frame with its round trip. -/

namespace Sys2Proof.Machine

open Sys2Proof

/-! ### Step 3 (R70) -/

/-- Step 3 as integer arithmetic (R70). -/
theorem extractSample_toNat (F : Frame) : (extractSample F).toNat = F.toNat / 2 ^ 13 % 2 ^ 12 := by
  rw [extractSample_eq, sampleField, sampleLo_val, BitVec.extractLsb'_toNat, Nat.shiftRight_eq_div_pow]

/-- The sample in 32 bits is the frame shifted down and masked: a mask of twelve ones is a remainder by 2^12. -/
theorem extractSample_setWidth_eq_and (F : Frame) : (extractSample F).setWidth 32 = F >>> 13 &&& 0xFFF#32 := by
  refine BitVec.eq_of_toNat_eq ?_
  calc ((extractSample F).setWidth 32).toNat
      = F.toNat / 2 ^ 13 % 2 ^ 12 := by rw [BitVec.toNat_setWidth_of_le (by decide), extractSample_toNat]
    _ = F.toNat >>> 13 &&& (2 ^ 12 - 1) := by rw [Nat.and_two_pow_sub_one_eq_mod, Nat.shiftRight_eq_div_pow]
    _ = (F >>> 13 &&& 0xFFF#32).toNat := by rw [BitVec.toNat_and, BitVec.toNat_ushiftRight]; rfl

/-- Step 3 reads the bits 24..13 only. -/
theorem extractSample_congr {F G : Frame} (h : ∀ i, 13 ≤ i → i ≤ 24 → F.getLsbD i = G.getLsbD i) :
    extractSample F = extractSample G := by
  rw [extractSample_eq, extractSample_eq]
  refine BitVec.eq_of_getLsbD_eq fun k hk => ?_
  rw [sampleField_getLsbD, sampleField_getLsbD, h (13 + k) (by omega) (by omega)]

/-- Settles O17: step 3 is the sample field, so its value is a quotient's remainder; widening adds zero bits. -/
theorem extractSampleTakesTheSampleField : Obligations.ExtractSampleTakesTheSampleField :=
  ⟨extractSample_eq, extractSample_setWidth_eq_and,
    fun F => ⟨extractSample_toNat F, Nat.le_of_lt_succ (extractSample F).isLt⟩,
    fun _ _ hn => BitVec.toNat_setWidth_of_le hn, fun _ _ h => extractSample_congr h, by decide⟩

/-! ### The valid response frame (R72, R73) -/

/-- The sample stands from bit 13 upward; its bit 0, which has no copy, included. -/
theorem respFrame_getLsbD_from_center (s : Sample) (k : Nat) : (respFrame s).getLsbD (13 + k) = s.getLsbD k := by
  rw [respFrame_getLsbD, if_neg (by omega), if_neg (by omega), Nat.add_sub_cancel_left]

/-- The mandatory-zero bits of a valid frame, and all bits past its width, are 0. -/
theorem respFrame_getLsbD_of_outside (s : Sample) {i : Nat} (hi : i < 2 ∨ 25 ≤ i) : (respFrame s).getLsbD i = false := by
  by_cases h32 : i < 32
  · exact (and_mzMask_eq_zero_iff _).1 (respFrame_and_mzMask s) i h32 hi
  · exact BitVec.getLsbD_of_ge _ _ (by omega)

/-- Settles O21: the sample bits stand above bit 13, their copies mirrored below it, and all else is 0. -/
theorem respFrameBitByBit : Obligations.RespFrameBitByBit := by
  intro s
  have hzero : ∀ i, i < 2 ∨ 25 ≤ i → (respFrame s).getLsbD i = false := fun _ => respFrame_getLsbD_of_outside s
  exact ⟨rfl, fun k _ => respFrame_getLsbD_from_center s k,
    fun _ h1 h11 => (respFrame_getLsbD_about_center s h1 h11).1,
    fun i h25 => hzero i (.inr h25), hzero 1 (.inl (by decide)), hzero 0 (.inl (by decide))⟩

/-- Bit `j` of a valid frame's checksum field is frame bit 2 + j, which is 11 - j below bit 13 (R73). -/
theorem cksumField_respFrame_getLsbD (s : Sample) {j : Nat} (hj : j ≤ 10) :
    (cksumField (respFrame s)).getLsbD j = s.getLsbD (11 - j) := by
  rw [cksumField_getLsbD, decide_eq_true (by omega), Bool.true_and, show 2 + j = 13 - (11 - j) by omega]
  exact (respFrame_getLsbD_about_center s (by omega) (by omega)).1

/-- Settles O22: the checksum field as a number and bit by bit; the table's rows are evaluated. -/
theorem respFrameChecksumField : Obligations.RespFrameChecksumField := by
  refine ⟨fun s => ⟨cksumField_respFrame s, fun _ hj => cksumField_respFrame_getLsbD s hj⟩, fun row hrow => ?row⟩
  case row => fin_cases hrow <;> decide

/-! ### The round trip (R74, R75) -/

/-- Settles O23: the bytes of a frame give the frame back, and a valid frame passes both checks. -/
theorem decodeReturnsTheSampleSent : Obligations.DecodeReturnsTheSampleSent := decodeOp_bytesOfFrame_respFrame

/-- DECODE of a frame's bytes accepts with sample `s` exactly the valid frame of `s`. -/
theorem decodeOp_bytesOfFrame_eq_ok_iff (F : Frame) (s : Sample) :
    decodeOp (bytesOfFrame F) = .ok s ↔ respFrame s = F := by
  rw [decodeOp, frameOfBytes_bytesOfFrame, decodeFrame_eq_ok_iff]

/-- Settles O24: the accepted frames are the image of the injective RespFrame, so there is one per 12-bit sample. -/
theorem decodeAcceptsExactlyTheRespFrames : Obligations.DecodeAcceptsExactlyTheRespFrames := by
  refine ⟨fun F s => ?accepts, fun _ _ h => respFrame_injective h, ?count⟩
  case accepts => rw [decodeOp_bytesOfFrame_eq_ok_iff, eq_comm]
  case count =>
    calc Nat.card { F : Frame // ∃ s, decodeOp (bytesOfFrame F) = .ok s }
        = Nat.card Sample :=
          natCard_frames respFrame_injective fun F => exists_congr fun s => decodeOp_bytesOfFrame_eq_ok_iff F s
      _ = 4096 := natCard_bitVec 12

end Sys2Proof.Machine
end

section
/-! The exceptions family (60_exceptions.md): errors are results and never stops, what each result code stands for, and
the records of the three errors. -/

namespace Sys2Proof.Machine

open Sys2Proof

/-! ### No fault (60_exceptions.md R76, R82): an operation completes, and the boundary only refuses -/

theorem exec_ne_fault (i : Instr) (s : State) (f : Fault) : exec i s ≠ .fault f := by
  obtain ⟨t, ht⟩ := exec_completes i s
  rw [ht]
  nofun

theorem runRequest_ne_fault (r : RawRequest) (s : State) (f : Fault) : runRequest r s ≠ .fault f := by
  cases hd : decodeRequest s.chInW r with
  | ok i =>
    rw [runRequest_of_ok hd]
    exact exec_ne_fault i s f
  | error e =>
    rw [runRequest_of_error hd]
    nofun

theorem runDecodeResponse_ne_fault (s : State) (f : Fault) : runDecodeResponse s ≠ .fault f := by
  rcases runDecodeResponse_cases s with ⟨b, -, hx⟩ | ⟨-, hx⟩
  · rw [hx]
    exact exec_ne_fault _ s f
  · rw [hx]
    nofun

theorem runBoth_ne_fault (bit : BitVec 1) (z : Int) (bs : List Byte) (s : State) (f : Fault) :
    runBoth bit z bs s ≠ .fault f := by
  rcases runBoth_cases bit z bs s with ⟨c, b, -, -, hx⟩ | ⟨e, hx⟩
  all_goals
    rw [hx]
    nofun

/-- No line of the harness faults. -/
theorem runForm_ne_fault (l : HarnessForm) (s : State) (f : Fault) : runForm l s ≠ .fault f := by
  cases l with
  | request r => exact runRequest_ne_fault r s f
  | xfer => nofun
  | decodeResponse => exact runDecodeResponse_ne_fault s f
  | read bit z => nofun
  | both bit z bs => exact runBoth_ne_fault bit z bs s f

/-- Settles O49: an idle step goes on, and no line faults. -/
theorem stepNeverFaults : Obligations.StepNeverFaults := by
  intro s f
  cases hp : s.program with
  | nil =>
    rw [step_of_nil hp]
    nofun
  | cons l rest =>
    rw [step_of_cons hp]
    exact runForm_ne_fault l _ f

/-- Settles O48: with no line to run, a step answers the state it met. -/
theorem idleStepHoldsEverything : Obligations.IdleStepHoldsEverything := fun _ hp => step_of_nil hp

/-! ### The result codes (R80, R81) -/

theorem encErrCode_eq_zero_iff (r : EncodeResult) : encErrCode r = 0#1 ↔ ∃ F, r = .ok F := by
  cases r <;> simp [encErrCode]

/-- ENCODE has one error kind only, so the code 1 names it. -/
theorem encErrCode_eq_one_iff (r : EncodeResult) : encErrCode r = 1#1 ↔ ∃ v, r = .err (.channelOutOfRange v) := by
  rcases r with F | ⟨⟨v⟩⟩ <;> simp [encErrCode]

theorem decStatusCode_eq_zero_iff (r : DecodeResult) : decStatusCode r = 0#2 ↔ ∃ v, r = .ok v := by
  rcases r with v | F | F <;> simp [decStatusCode]

theorem decStatusCode_eq_one_iff (r : DecodeResult) :
    decStatusCode r = 1#2 ↔ ∃ F, r = .err (.malformedResponse F) := by
  rcases r with v | F | F <;> simp [decStatusCode]

theorem decStatusCode_eq_two_iff (r : DecodeResult) :
    decStatusCode r = 2#2 ↔ ∃ F, r = .err (.checksumMismatch F) := by
  rcases r with v | F | F <;> simp [decStatusCode]

theorem decStatusCode_ne_three (r : DecodeResult) : decStatusCode r ≠ 3#2 := by
  rcases r with v | F | F <;> simp [decStatusCode]

/-- Settles O30: the ports carry the codes of the current results. -/
theorem resultCodesNameTheResult : Obligations.ResultCodesNameTheResult :=
  fun _ => ⟨encErrCode_eq_zero_iff _, encErrCode_eq_one_iff _, decStatusCode_eq_zero_iff _, decStatusCode_eq_one_iff _,
    decStatusCode_eq_two_iff _, decStatusCode_ne_three _⟩

/-- Of the four codes, 3 alone reads as a fault. -/
theorem readDecStatus_eq_fault_iff (code : BitVec 2) : readDecStatus code = .error .decStatusThree ↔ code = 3#2 := by
  revert code
  decide

/-- The only fault there is names the code 3, so every other code reads as a kind of result. -/
theorem readDecStatus_of_ne_three {code : BitVec 2} (h : code ≠ 3#2) : ∃ k, readDecStatus code = .ok k := by
  cases hr : readDecStatus code with
  | ok k => exact ⟨k, rfl⟩
  | error f => exact absurd ((readDecStatus_eq_fault_iff code).1 hr) h

/-- Settles O31: no result has the code 3, and that is the one code whose reading faults. -/
theorem statusThreeIsNeverDriven : Obligations.StatusThreeIsNeverDriven := by
  refine ⟨fun s => ?driven, readDecStatus_eq_fault_iff⟩
  case driven =>
    have hne : s.decStatus ≠ 3#2 := decStatusCode_ne_three s.decResult
    exact ⟨hne, readDecStatus_of_ne_three hne⟩

/-! ### The records of the errors (R77, R78, R79) -/

variable (s : State)

/-- The two ways the encoder's wires stand, with the result they give (R77). -/
theorem encResult_cases :
    (s.encChannel ≤ 7 ∧ s.encResult = .ok (commandFrame s.encMode s.encChannel)) ∨
    (7 < s.encChannel ∧ s.encResult = .err (.channelOutOfRange s.encChannel)) :=
  encodeOp_cases s.encMode s.encChannel

/-- The encoder reports an error exactly when the channel request is above 7. -/
theorem encErr_eq_one_iff : s.encErr = 1#1 ↔ 7 < s.encChannel := by
  rcases encResult_cases s with ⟨hc, hr⟩ | ⟨hc, hr⟩
  · rw [(encPorts_of_encResult_ok hr).1]
    exact iff_of_false (by decide) (Nat.not_lt.2 hc)
  · rw [(encPorts_of_encResult_err hr).1]
    exact iff_of_true rfl hc

/-- Settles O32: the condition, and the ports that an out-of-range channel gives. -/
theorem channelOutOfRangeRecord : Obligations.ChannelOutOfRangeRecord := by
  refine fun s => ⟨encErr_eq_one_iff s, fun hc => ?record⟩
  case record =>
    have hr : s.encResult = .err (.channelOutOfRange s.encChannel) := encodeOp_of_gt hc
    obtain ⟨-, hvalue, hframe⟩ := encPorts_of_encResult_err hr
    refine ⟨hr, hvalue, fun F => ?_⟩
    rw [hframe]
    nofun

/-- The three ways the decoder's ports stand, with the check that decides it, in the order of the checks (R78, R79). -/
theorem decRecord_cases :
    (s.decFrame &&& mzMask ≠ 0#32 ∧ s.decStatus = 1#2 ∧ s.decErrFrame = some s.decFrame) ∨
    (s.decFrame &&& mzMask = 0#32 ∧ align (rev s.decFrame) ≠ s.decFrame ∧
      s.decStatus = 2#2 ∧ s.decErrFrame = some s.decFrame) ∨
    (s.decFrame &&& mzMask = 0#32 ∧ align (rev s.decFrame) = s.decFrame ∧ s.decStatus = 0#2) := by
  rcases decodeFrame_cases s.decFrame with ⟨hz, hr⟩ | ⟨hz, hm, hr⟩ | ⟨hz, hm, hr⟩
  · exact .inl ⟨hz, decPorts_of_decResult_malformed hr⟩
  · exact .inr (.inl ⟨hz, hm, decPorts_of_decResult_mismatch hr⟩)
  · exact .inr (.inr ⟨hz, hm, (decPorts_of_decResult_ok hr).1⟩)

theorem decStatus_eq_one_iff : s.decStatus = 1#2 ↔ s.decFrame &&& mzMask ≠ 0#32 := by
  rcases decRecord_cases s with ⟨hz, hst, -⟩ | ⟨hz, -, hst, -⟩ | ⟨hz, -, hst⟩ <;> simp [hz, hst]

theorem decStatus_eq_two_iff :
    s.decStatus = 2#2 ↔ s.decFrame &&& mzMask = 0#32 ∧ align (rev s.decFrame) ≠ s.decFrame := by
  rcases decRecord_cases s with ⟨hz, hst, -⟩ | ⟨hz, hm, hst, -⟩ | ⟨hz, hm, hst⟩
  · simp [hz, hst]
  · simp [hz, hm, hst]
  · simp [hm, hst]

/-- Either decode error carries the raw frame. -/
theorem decErrFrame_of_decStatus_ne_zero (h : s.decStatus ≠ 0#2) : s.decErrFrame = some s.decFrame := by
  rcases decRecord_cases s with ⟨-, -, hframe⟩ | ⟨-, -, -, hframe⟩ | ⟨-, -, hst⟩
  · exact hframe
  · exact hframe
  · exact absurd hst h

/-- Settles O33: each status by its condition, and the frame that both errors carry. -/
theorem decodeErrorRecords : Obligations.DecodeErrorRecords := by
  intro s
  rw [← mzMask_val, ← align_eq]
  exact ⟨decStatus_eq_one_iff s, fun h => decErrFrame_of_decStatus_ne_zero s (by rw [h]; decide),
    decStatus_eq_two_iff s, fun h => decErrFrame_of_decStatus_ne_zero s (by rw [h]; decide)⟩

/-! ### The order of the checks, and the two datapaths apart (R84) -/

/-- The one error of ENCODE carries its channel request (R77). -/
theorem encodeOp_err_eq {bit : BitVec 1} {c : Nat} {e : EncodeError} (h : encodeOp bit c = .err e) :
    e = .channelOutOfRange c := by
  rcases encodeOp_cases bit c with ⟨-, hr⟩ | ⟨-, hr⟩
  · rw [hr] at h
    cases h
  · rw [hr] at h
    cases h
    rfl

variable {s} {t : State}

theorem encResult_congr (hm : s.encMode = t.encMode) (hc : s.encChannel = t.encChannel) : s.encResult = t.encResult := by
  rw [State.encResult, hm, hc, State.encResult]

theorem decResult_congr (hb : s.decBytes = t.decBytes) : s.decResult = t.decResult := by
  rw [State.decResult, hb, State.decResult]

/-- Settles O27: a frame that fails step 1 never reaches step 2, and each result is a function of its own wires. -/
theorem structuralErrorComesFirst : Obligations.StructuralErrorComesFirst := by
  refine ⟨fun F hz _ => ?malformed, decodeFrame_of_and_mzMask_ne_zero (by decide), fun _ _ _ h => encodeOp_err_eq h,
    fun _ _ hm hc => encResult_congr hm hc, fun _ _ hb => decResult_congr hb⟩
  case malformed =>
    rw [← mzMask_val] at hz
    exact decodeFrame_of_and_mzMask_ne_zero hz

end Sys2Proof.Machine
end
